-- ==== Sys2Proof/Word.lean ====
section
/-! DEFINITION. The word types of the block (00_scope.md R6, R7; 10_state.md R22): every value of the
spec is an unsigned bit vector of one of these widths, bit 0 least significant. -/

namespace Sys2Proof

/-- The width of the CRC register and of `crc_q` (10_state.md R16, R22). -/
abbrev Word16 := BitVec 16

/-- A data byte, a trailer byte or a compare input (10_state.md R22). -/
abbrev Byte := BitVec 8

/-- The command word `cmd` (30_encoding.md R39). -/
abbrev CmdWord := BitVec 10

end Sys2Proof
end

