-- ==== Sys2Proof/Syntax.lean ====
section
/-! DEFINITION. The commands of the block: one constructor per row of spec/opcode_table.json. -/

namespace Sys2Proof

/-- The four rows of the opcode map (30_encoding.md R40, R44). NOP and INIT carry no operand, because
their data field is ignored (R41). -/
inductive Instr where
  /-- NOP: hold the register (40_crc_commands.md R51). -/
  | nop
  /-- INIT: start at the initial register value (R52). -/
  | init
  /-- UPDATE b: feed one byte (R53). -/
  | update (b : Byte)
  /-- The reserved op with its data field (R42, R54). -/
  | reserved (d : Byte)
  deriving DecidableEq, Repr

end Sys2Proof
end

