-- ==== Sys2Proof/WellFormed.lean ====
section
/-! DEFINITION. What the spec calls a defined command (30_encoding.md R42), a byte literal and a
well-formed line of assembly (R45, R46). Every value of Instr is a word of the hardware; the checks
say which of them an assembler may produce. -/

namespace Sys2Proof

/-- A defined command: NOP, INIT or UPDATE. The reserved op is not defined and cannot be assembled
(30_encoding.md R42, R45). -/
def Instr.isDefined : Instr → Bool
  | .nop => true
  | .init => true
  | .update _ => true
  | .reserved _ => false

/-- A command stream that an assembler can produce: defined commands only (30_encoding.md R45, R47). -/
def definedStream (is : List Instr) : Bool := is.all Instr.isDefined

/-- A number that is a `<byte>`: 0 to 255 (30_encoding.md R45). -/
def isByteLiteral (n : Nat) : Bool := n ≤ 255

/-- A number that is a 10-bit command word (30_encoding.md R39). -/
def isCommandWord (n : Nat) : Bool := n < 1024

/-- One line of assembly: a command (30_encoding.md R45) or a pseudo-instruction (R46), its literals
as read, before the range check. -/
inductive AsmLine where
  | nop
  | init
  | update (b : Nat)
  | feed (bs : List Nat)
  | crc (bs : List Nat)
  deriving DecidableEq, Repr

/-- The checks on a line: every literal is a byte (30_encoding.md R45), and FEED has at least one
operand (R46: `FEED b0, b1, ..., bk`), where CRC may have none (R46: `CRC` (no operand)). -/
def AsmLine.wellFormed : AsmLine → Bool
  | .nop => true
  | .init => true
  | .update b => isByteLiteral b
  | .feed bs => !bs.isEmpty && bs.all isByteLiteral
  | .crc bs => bs.all isByteLiteral

end Sys2Proof
end

