-- ==== Sys2Proof/Decode.lean ====
section
/-! DEFINITION. The command word's fields, the decoder, the encoder and the opcode table
(30_encoding.md). Decoding is total on the 1024 words (R44): the reserved words decode to a
constructor of their own, which exec refuses by name. -/

namespace Sys2Proof

/-- `op = cmd[9:8]` (30_encoding.md R39). -/
def opField (w : CmdWord) : BitVec 2 := w.extractLsb' 8 2

/-- `d = cmd[7:0]` (30_encoding.md R39). -/
def dataField (w : CmdWord) : Byte := w.extractLsb' 0 8

/-- The command word with the given fields, pattern `oodddddddd` (30_encoding.md R39). -/
def commandWord (op : BitVec 2) (d : Byte) : CmdWord := op ++ d

/-- The decoder, by `op` alone (30_encoding.md R44). -/
def decode (w : CmdWord) : Instr :=
  if opField w = 0b00#2 then .nop
  else if opField w = 0b01#2 then .init
  else if opField w = 0b10#2 then .update (dataField w)
  else .reserved (dataField w)

/-- The encoder: the canonical word of a command (30_encoding.md R45: `NOP` is 0x000, `INIT` is 0x100,
`UPDATE b` is `0x200 + b`), and for the reserved op the word that holds its data field (R42). -/
def encode : Instr → CmdWord
  | .nop => commandWord 0b00#2 0x00#8
  | .init => commandWord 0b01#2 0x00#8
  | .update b => commandWord 0b10#2 b
  | .reserved d => commandWord 0b11#2 d

/-- The spelling an assembler gives a word (30_encoding.md R43): `d = 0` for NOP and INIT. -/
def canonicalWord (w : CmdWord) : CmdWord :=
  if opField w = 0b00#2 ∨ opField w = 0b01#2 then commandWord (opField w) 0x00#8 else w

/-- One row of the opcode table: a word is the row's when `word AND mask = bits`
(30_encoding.md R40). -/
structure OpcodeRow where
  mnemonic : String
  bits : CmdWord
  mask : CmdWord
  deriving DecidableEq, Repr

/-- The opcode table (30_encoding.md R40; spec/opcode_table.json). -/
def opcodeTable : List OpcodeRow :=
  [⟨"NOP", 0x000, 0x300⟩, ⟨"INIT", 0x100, 0x300⟩, ⟨"UPDATE", 0x200, 0x300⟩, ⟨"RESERVED", 0x300, 0x300⟩]

/-- The row matches the word. -/
def OpcodeRow.matchesWord (r : OpcodeRow) (w : CmdWord) : Bool := w &&& r.mask == r.bits

/-- The table's row of a command (spec/opcode_table.json). -/
def Instr.row : Instr → OpcodeRow
  | .nop => ⟨"NOP", 0x000, 0x300⟩
  | .init => ⟨"INIT", 0x100, 0x300⟩
  | .update _ => ⟨"UPDATE", 0x200, 0x300⟩
  | .reserved _ => ⟨"RESERVED", 0x300, 0x300⟩

/-- The command that the decoder reads from an instruction of `nbits` bits `w`, bit 0 least
significant; the bits above `nbits` are 0. A value of more than 10 bits is no command word
(30_encoding.md R39, R44): DESIGN CHOICE, safe, notes/assumptions/11.md. -/
def decodeTableWord (nbits w : Nat) : Option Instr :=
  if isCommandWord (w % 2 ^ nbits) then some (decode (BitVec.ofNat 10 (w % 2 ^ nbits))) else none

end Sys2Proof
end

