-- ==== Sys2Proof/Config.lean ====
section
/-! DEFINITION. The fixed parameters of the block (00_scope.md R6), none of them configurable
(10_state.md R20), and the free values that stand for the consumer's choices. -/

namespace Sys2Proof

/-- The constant of the right-shifting update (00_scope.md R6; 90_conflicts.md C1). -/
def Config.polynomial : Word16 := 0xA001

/-- The same generator in normal form, x^16 + x^15 + x^2 + 1 without its leading term
(00_scope.md R6; 40_crc_commands.md R55; 90_conflicts.md C1). -/
def Config.polynomialNormal : Word16 := 0x8005

/-- The initial register value (00_scope.md R6), which INIT and reset load (R52, R85). -/
def Config.initialValue : Word16 := 0xFFFF

/-- The most payload bytes of an encoded frame: the encoder's limit, which the block does not enforce
(41_outputs_and_frames.md R65, R66; 92_eei_decisions.md D13). -/
def Config.maxEncodedData : Nat := 252

/-- The most bytes of an encoded frame (41_outputs_and_frames.md R66; 90_conflicts.md C3). -/
def Config.maxEncodedFrame : Nat := 256

/-- The port of an instance that stands alone, as the host's machine does. Every instance has its own
ports (60_exceptions.md R82), and the number says which: it indexes the free values only, and is no
identifier of the hardware. DESIGN CHOICE, safe: notes/assumptions/16.md. -/
def Config.solePort : Nat := 0

/-- FREE VALUE: the `rst` input of the k-th pair that the consumer at a port issues beyond those listed
in `State.inputs` (10_state.md R18, R23: the consumer decides). The consumers of two ports are
unrelated, as nothing relates the values at two port numbers (60_exceptions.md R82). DESIGN CHOICE,
safe: notes/assumptions/3.md and 16.md. -/
opaque Config.freeRst (port k : Nat) : Bool

/-- FREE VALUE: the `cmd` input of that pair (10_state.md R18, R23). DESIGN CHOICE, safe:
notes/assumptions/3.md and 16.md. -/
opaque Config.freeCmd (port k : Nat) : CmdWord

end Sys2Proof
end

