-- ==== Sys2Proof/Machine/State.lean ====
section
/-! DEFINITION. The state of one instance (10_state.md R26), the reasons a step can stop
(60_exceptions.md R74), and the state after reset and at power-up (10_state.md R27). -/

namespace Sys2Proof.Machine

/-- The reason code that `fault_mark` holds (10_state.md R26). -/
inductive FaultReason where
  /-- Code 2 (60_exceptions.md R74). -/
  | readUnset
  deriving DecidableEq, Repr

/-- The reason code that `refuse_mark` holds (10_state.md R26). -/
inductive RefuseReason where
  /-- Code 1 (60_exceptions.md R74). -/
  | reservedOp
  deriving DecidableEq, Repr

/-- The outputs a consumer can observe (10_state.md R22; 41_outputs_and_frames.md R61 to R63). -/
inductive Output where
  | crcQ
  | crcLo
  | crcHi
  | matchOut
  deriving DecidableEq, Repr

/-- What read the register: the "info" of `ReadUnset` (60_exceptions.md R74: "the command word or the
output name is the info"). -/
inductive ReadSource where
  | command (word : CmdWord)
  | output (o : Output)
  deriving DecidableEq, Repr

/-- Why the machine stops with a fault. -/
inductive Fault where
  /-- `ReadUnset`, code 2: raised by UPDATE, or by an observation of an output, while `crc = ⊥`
  (60_exceptions.md R74, R75). Safe: the model stops where the hardware reads an unspecified value. -/
  | readUnset (src : ReadSource)
  /-- Raised by a step from a state with a mark set: "no step" (10_state.md R25; 40_crc_commands.md
  R48; 60_exceptions.md R78 item 1). It is no outcome of R74 and has no code. Safe: the model stops
  where the hardware goes on (R80). DESIGN CHOICE: notes/assumptions/4.md. -/
  | quiescent
  deriving DecidableEq, Repr

/-- Why the machine gives a command no meaning. -/
inductive Refusal where
  /-- `ReservedOp`, code 1: raised by a step that decodes a word with `cmd[9:8] = 11`
  (40_crc_commands.md R54; 60_exceptions.md R74); it carries the word, which "is the info". Safe: the
  model stops where an implementation leaves `crc` unchanged. -/
  | reservedOp (word : CmdWord)
  /-- Raised by the dispatch for a row that has no meaning yet; no arm does. Safe: the model stops. -/
  | notModelled (mnemonic : String)
  deriving DecidableEq, Repr

/-- The code of a fault; 0 is not used, and no step is no outcome (60_exceptions.md R74). -/
def Fault.code : Fault → Option Nat
  | .readUnset _ => some 2
  | .quiescent => none

/-- The reason a fault records in `fault_mark` (60_exceptions.md R74). -/
def Fault.reason : Fault → Option FaultReason
  | .readUnset _ => some .readUnset
  | .quiescent => none

/-- The code of a refusal (60_exceptions.md R74). -/
def Refusal.code : Refusal → Option Nat
  | .reservedOp _ => some 1
  | .notModelled _ => none

/-- The reason a refusal records in `refuse_mark` (60_exceptions.md R74). -/
def Refusal.reason : Refusal → Option RefuseReason
  | .reservedOp _ => some .reservedOp
  | .notModelled _ => none

/-- One pair `(rst, cmd)` on the input ports, which a step takes (10_state.md R22, R23). -/
structure PortPair where
  rst : Bool
  cmd : CmdWord
  deriving DecidableEq, Repr

/-- The complete state of one instance (10_state.md R26), and the consumer's side of the command port
(R22, R23), which is the model's own: the block has no program counter and no instruction memory
(R18). -/
structure State where
  /-- The CRC register; `none` is ⊥, "holds no value" (10_state.md R16, R17). -/
  crc : Option Word16
  /-- The spec's `fault_mark` (10_state.md R25). -/
  faultMark : Option FaultReason
  /-- The spec's `refuse_mark` (10_state.md R25). -/
  refuseMark : Option RefuseReason
  /-- MODEL'S OWN: the pairs the consumer has issued and no step has taken, oldest first
  (10_state.md R18, R23; 20_memory.md R37). DESIGN CHOICE: notes/assumptions/2.md. -/
  inputs : List PortPair
  /-- MODEL'S OWN: how many pairs have been drawn as free values at this instance's port. DESIGN CHOICE:
  notes/assumptions/3.md. -/
  drawn : Nat
  deriving DecidableEq, Repr

/-- The machine right after reset: `crc = 0xFFFF`, no mark (10_state.md R27), nothing issued yet. -/
def State.reset : State :=
  { crc := some Config.initialValue, faultMark := none, refuseMark := none, inputs := [], drawn := 0 }

/-- The machine at power-up: `crc = ⊥`, no mark (10_state.md R17, R27). -/
def State.powerUp : State :=
  { crc := none, faultMark := none, refuseMark := none, inputs := [], drawn := 0 }

end Sys2Proof.Machine
end

