-- ==== Sys2Proof/Machine/Operands.lean ====
section
/-! DEFINITION. The operand form of UPDATE and the byte-order helpers (00_scope.md R8;
30_encoding.md R41; 41_outputs_and_frames.md R62). The command's one operand is the byte
`cmd[7:0]`, which the decoder hands over as it is, with no scaling and no shifting. -/

namespace Sys2Proof.Machine

/-- `zext_16(v)` (00_scope.md R8): the operand of Upd's exclusive or (30_encoding.md R41). -/
def zext16 (b : Byte) : Word16 := b.setWidth 16

/-- `v[7:0]` (00_scope.md R7): the byte sent first (20_memory.md R32). -/
def lowByte (v : Word16) : Byte := v.extractLsb' 0 8

/-- `v[15:8]` (00_scope.md R7): the byte sent second (20_memory.md R32). -/
def highByte (v : Word16) : Byte := v.extractLsb' 8 8

/-- `hi ∥ lo` (00_scope.md R8). -/
def joinBytes (hi lo : Byte) : Word16 := hi ++ lo

end Sys2Proof.Machine
end

