-- ==== Sys2Proof/Machine/Crc.lean ====
section
/-! DEFINITION. The CRC function (40_crc_commands.md R49, R50), written as the spec writes it. -/

namespace Sys2Proof.Machine

/-- One iteration of Upd's loop: shift right by one, with an exclusive or of 0xA001 when the bit
shifted out is 1 (40_crc_commands.md R49). -/
def shiftStep (t : Word16) : Word16 :=
  if t.getLsbD 0 then (t >>> 1) ^^^ Config.polynomial else t >>> 1

/-- `n` iterations of the loop. -/
def shiftSteps : Nat → Word16 → Word16
  | 0, t => t
  | n + 1, t => shiftSteps n (shiftStep t)

/-- `Upd(c, b)`: the exclusive or of the byte into the low 8 bits, then eight iterations
(40_crc_commands.md R49). The loop is the spec's from general knowledge (G2): PRESUMED, unsafe,
notes/assumptions/7.md. -/
def upd (c : Word16) (b : Byte) : Word16 := shiftSteps 8 (c ^^^ zext16 b)

/-- Upd folded over the bytes in wire order, from the register value `c`
(40_crc_commands.md R50; 70_reset_and_hazards.md R88). -/
def crcFrom (c : Word16) (m : List Byte) : Word16 := m.foldl upd c

/-- `CRC16(m)`: from the initial register value, with no final exclusive or
(40_crc_commands.md R50; 93_implementation_defined.md G3). -/
def crc16 (m : List Byte) : Word16 := crcFrom Config.initialValue m

end Sys2Proof.Machine
end

