-- ==== Sys2Proof/Machine/Ops.lean ====
section
/-! DEFINITION. The named operations over the state. The block has no memory (20_memory.md R30), so
there is no memory operation; it takes no exception and returns from none (60_exceptions.md R73, R79,
R80): what takes an exception's place is the recording of a mark, once, here. -/

namespace Sys2Proof.Machine

/-- `crc <- v` (00_scope.md R9; 10_state.md R16). -/
def State.writeCrc (s : State) (v : Word16) : State := { s with crc := some v }

/-- Reads `crc`; ⊥ faults with `ReadUnset` (60_exceptions.md R75). The fault on ⊥ is the spec's own
rule: notes/assumptions/1.md. -/
def State.readCrc (s : State) (src : ReadSource) : Except Fault Word16 :=
  match s.crc with
  | some c => .ok c
  | none => .error (.readUnset src)

/-- The reset step's effect: `crc <- 0xFFFF`, the marks as they were (70_reset_and_hazards.md R85). -/
def State.resetCrc (s : State) : State := s.writeCrc Config.initialValue

/-- Power is removed: `crc` returns to ⊥ (60_exceptions.md R84). That the marks stay is the model's
choice: DESIGN CHOICE, safe, notes/assumptions/9.md. -/
def State.powerLoss (s : State) : State := { s with crc := none }

/-- A mark is set (10_state.md R25). -/
def State.marked (s : State) : Bool := s.faultMark.isSome || s.refuseMark.isSome

/-- `fault_mark <- r`; once set it is never changed (10_state.md R25). -/
def State.markFault (s : State) (r : FaultReason) : State :=
  { s with faultMark := s.faultMark <|> some r }

/-- `refuse_mark <- r`; once set it is never changed (10_state.md R25). -/
def State.markRefusal (s : State) (r : RefuseReason) : State :=
  { s with refuseMark := s.refuseMark <|> some r }

/-- A fault's record: its reason in `fault_mark`, `crc` as it was (40_crc_commands.md R48;
60_exceptions.md R74, R79). -/
def State.recordFault (s : State) (f : Fault) : State :=
  match f.reason with
  | some r => s.markFault r
  | none => s

/-- A refusal's record: its reason in `refuse_mark`, `crc` as it was (40_crc_commands.md R48, R54;
60_exceptions.md R74, R79). -/
def State.recordRefusal (s : State) (r : Refusal) : State :=
  match r.reason with
  | some q => s.markRefusal q
  | none => s

/-- The pair the next step of the instance at a port takes: the oldest its consumer has issued, or,
when none is listed, free values of that port, since the consumer supplies a pair at every step
(10_state.md R23) and every instance has its own ports (60_exceptions.md R82). DESIGN CHOICE, safe:
notes/assumptions/3.md and 16.md. -/
def State.nextPairOn (s : State) (port : Nat) : PortPair :=
  match s.inputs with
  | p :: _ => p
  | [] => ⟨Config.freeRst port s.drawn, Config.freeCmd port s.drawn⟩

/-- The pair the next step of an instance that stands alone takes. -/
def State.nextPair (s : State) : PortPair := s.nextPairOn Config.solePort

/-- The state once that pair has been taken (10_state.md R23; 20_memory.md R37). -/
def State.afterPair (s : State) : State :=
  match s.inputs with
  | _ :: rest => { s with inputs := rest }
  | [] => { s with drawn := s.drawn + 1 }

/-- The consumer issues one pair ahead of those listed. -/
def State.issueFirst (s : State) (p : PortPair) : State := { s with inputs := p :: s.inputs }

/-- The consumer issues a list of pairs after those listed (20_memory.md R37: in issue order). -/
def State.issue (s : State) (ps : List PortPair) : State := { s with inputs := s.inputs ++ ps }

/-- The pair that carries a command word with `rst = 0` (10_state.md R23). -/
def commandPair (w : CmdWord) : PortPair := ⟨false, w⟩

/-- The pairs that carry a list of commands in order (30_encoding.md R47). -/
def commandPairs (is : List Instr) : List PortPair := is.map fun i => commandPair (encode i)

end Sys2Proof.Machine
end

