-- ==== Sys2Proof/Machine/Commands.lean ====
section
/-! DEFINITION. The meanings of the four rows of the opcode table (40_crc_commands.md R51 to R54). -/

namespace Sys2Proof.Machine

/-- NOP: `crc <- crc`, without reading it, so that ⊥ stays ⊥ (40_crc_commands.md R51). -/
def execNop (s : State) : Host.Outcome State Fault Refusal := .next s

/-- INIT: `crc <- 0xFFFF`, without reading it, so that it is legal at ⊥ (40_crc_commands.md R52). -/
def execInit (s : State) : Host.Outcome State Fault Refusal := .next (s.writeCrc Config.initialValue)

/-- UPDATE b: `crc <- Upd(crc, b)`, with the fault `ReadUnset` at ⊥ (40_crc_commands.md R53). -/
def execUpdate (b : Byte) (s : State) : Host.Outcome State Fault Refusal :=
  match s.readCrc (.command (encode (.update b))) with
  | .ok c => .next (s.writeCrc (upd c b))
  | .error f => .fault f

/-- The reserved op: `refuse ReservedOp`, whatever `crc` holds (40_crc_commands.md R54;
60_exceptions.md R78 item 3). That the model refuses where an implementation leaves `crc` unchanged is
the spec's own decision: notes/assumptions/5.md. -/
def execReserved (d : Byte) (_s : State) : Host.Outcome State Fault Refusal :=
  .refused (.reservedOp (encode (.reserved d)))

end Sys2Proof.Machine
end

