-- ==== Sys2Proof/Machine/Dispatch.lean ====
section
/-! DEFINITION. One arm per constructor of Instr, each a direct call of that command's meaning. -/

namespace Sys2Proof.Machine

/-- The case split of the step (40_crc_commands.md R48). -/
def exec (i : Instr) (s : State) : Host.Outcome State Fault Refusal :=
  match i with
  | .nop => Sys2Proof.Machine.execNop s
  | .init => Sys2Proof.Machine.execInit s
  | .update b => Sys2Proof.Machine.execUpdate b s
  | .reserved d => Sys2Proof.Machine.execReserved d s

end Sys2Proof.Machine
end

