-- ==== Sys2Proof/Machine/Sequencer.lean ====
section
/-! DEFINITION. One step of an instance: taking a pair, the order of the conditions
(40_crc_commands.md R48; 60_exceptions.md R78), and the state that a fault or a refusal leaves. -/

namespace Sys2Proof.Machine

/-- What an unmarked state does with one pair: reset wins and `cmd` is not decoded, else the decoded
command runs (40_crc_commands.md R48; 70_reset_and_hazards.md R85). -/
def stepPair (p : PortPair) (s : State) : Host.Outcome State Fault Refusal :=
  if p.rst then .next s.resetCrc else exec (decode p.cmd) s

/-- One step of the instance at a port: a marked state takes none (10_state.md R25), any other takes
its consumer's next pair (10_state.md R23; 60_exceptions.md R82). -/
def takeStepOn (port : Nat) (s : State) : Host.Outcome State Fault Refusal :=
  if s.marked then .fault .quiescent else stepPair (s.nextPairOn port) s.afterPair

/-- One step of an instance that stands alone. -/
def takeStep (s : State) : Host.Outcome State Fault Refusal := takeStepOn Config.solePort s

/-- The state an outcome leaves, where `s` is the state the command ran on: a fault or a refusal sets
its mark and leaves `crc` (40_crc_commands.md R48). -/
def settle (s : State) : Host.Outcome State Fault Refusal → State
  | .next t => t
  | .fault f => s.recordFault f
  | .refused r => s.recordRefusal r

/-- The state after a step of the instance at a port, the marks recorded; a marked state stays as it is
(10_state.md R25). That a fault or a refusal has taken its pair is the model's choice:
notes/assumptions/6.md. -/
def stateAfterOn (port : Nat) (s : State) : State :=
  if s.marked then s else settle s.afterPair (takeStepOn port s)

/-- The state after a step of an instance that stands alone. -/
def stateAfter (s : State) : State := stateAfterOn Config.solePort s

end Sys2Proof.Machine
end

