-- ==== Sys2Proof/Machine/Step.lean ====
section
/-! DEFINITION. The machine's step, and the placing of a word where the next step takes it. -/

namespace Sys2Proof.Machine

/-- One step of one instance (40_crc_commands.md R48). -/
def step (s : State) : Host.Outcome State Fault Refusal := takeStep s

/-- The consumer issues the word with `rst = 0` ahead of every other pair, so that the very next step
takes it (10_state.md R18, R23); the bits above `nbits` are 0. notes/assumptions/2.md says how a
program comes to run from State.reset. -/
def State.withFetchWord (s : State) (nbits w : Nat) : State :=
  s.issueFirst (commandPair (BitVec.ofNat 10 (w % 2 ^ nbits)))

end Sys2Proof.Machine
end

