-- ==== Sys2Proof/Machine/Frames.lean ====
section
/-! DEFINITION. The contract by which the frame codec drives the block (41_outputs_and_frames.md R65 to
R72): the covered bytes, the trailer, the two command sequences and the two checks. The codec's own
length rules are out of scope (00_scope.md R5). -/

namespace Sys2Proof.Machine

/-- The message of a frame (41_outputs_and_frames.md R65, R70). -/
structure Message where
  slaveId : Byte
  functionCode : Byte
  data : List Byte
  deriving DecidableEq, Repr

/-- `M = slaveId ‖ functionCode ‖ data` (41_outputs_and_frames.md R65). -/
def Message.covered (m : Message) : List Byte := m.slaveId :: m.functionCode :: m.data

/-- The two trailer bytes of a CRC, low byte first (41_outputs_and_frames.md R66; 20_memory.md R32). -/
def trailerBytes (c : Word16) : List Byte := [lowByte c, highByte c]

/-- The encoded frame of the covered bytes (41_outputs_and_frames.md R66). The block accepts any
length; the size check is the codec's. -/
def encodeFrame (m : List Byte) : List Byte := m ++ trailerBytes (crc16 m)

/-- A frame of n bytes taken apart: `F[0:n-2]`, `F[n-2]`, `F[n-1]` (41_outputs_and_frames.md R68);
nothing where n < 2. -/
def splitTrailer : List Byte → Option (List Byte × Byte × Byte)
  | [] => none
  | [_] => none
  | [lo, hi] => some ([], lo, hi)
  | b :: rest =>
    match splitTrailer rest with
    | some (covered, lo, hi) => some (b :: covered, lo, hi)
    | none => none

/-- The check of a received frame (41_outputs_and_frames.md R68): the CRC of the covered bytes against
the trailer. Fewer than 2 bytes have no trailer and get no verdict: DESIGN CHOICE, safe,
notes/assumptions/10.md. -/
def checkFrame (f : List Byte) : Option Bool :=
  (splitTrailer f).map fun p => crc16 p.1 == joinBytes p.2.2 p.2.1

/-- The check by residue: all bytes fed, trailer included (41_outputs_and_frames.md R71). -/
def checkByResidue (f : List Byte) : Bool := crc16 f == 0x0000

/-- The consumer's message of a frame that passes: `slaveId`, `functionCode`, `bytes[2:len-2]`
(41_outputs_and_frames.md R70); nothing on a mismatch, and nothing where the covered bytes hold no
slave id and function code. -/
def acceptFrame (f : List Byte) : Option Message :=
  match checkFrame f, splitTrailer f with
  | some true, some (slaveId :: functionCode :: data, _, _) => some ⟨slaveId, functionCode, data⟩
  | _, _ => none

/-- The commands that feed bytes in wire order (30_encoding.md R46, FEED). -/
def feedCommands (m : List Byte) : List Instr := m.map Instr.update

/-- The commands that compute `CRC16(m)` from the start (30_encoding.md R46, CRC): an encoder's
sequence for a message and a decoder's for the covered bytes (41_outputs_and_frames.md R67, R69). -/
def crcCommands (m : List Byte) : List Instr := .init :: feedCommands m

/-- The frame with bit `j` of byte `k` inverted (40_crc_commands.md R60). -/
def flipBit (f : List Byte) (k j : Nat) : List Byte := f.modify k (· ^^^ (1#8 <<< j))

end Sys2Proof.Machine
end

