-- ==== Sys2Proof/Machine/Assembler.lean ====
section
/-! DEFINITION. The assembler and the disassembler of the command words (30_encoding.md R43, R45 to
R47). Text is a list of characters. -/

namespace Sys2Proof.Machine

/-- The commands of a line (30_encoding.md R45, R46); nothing for an assembly error. -/
def expand (l : AsmLine) : Option (List Instr) :=
  if l.wellFormed then
    match l with
    | .nop => some [.nop]
    | .init => some [.init]
    | .update b => some [.update (BitVec.ofNat 8 b)]
    | .feed bs => some (feedCommands (bs.map (BitVec.ofNat 8)))
    | .crc bs => some (crcCommands (bs.map (BitVec.ofNat 8)))
  else none

/-- A blank between the parts of a line. DESIGN CHOICE: notes/assumptions/8.md. -/
def isBlank (c : Char) : Bool := c == ' ' || c == '\t' || c == '\r'

/-- The text without the blanks at its ends. -/
def trimBlanks (t : List Char) : List Char :=
  ((t.dropWhile isBlank).reverse.dropWhile isBlank).reverse

/-- The pieces of a text between separators. -/
def splitAtChar (sep : Char) : List Char → List (List Char)
  | [] => [[]]
  | c :: cs =>
    match splitAtChar sep cs with
    | [] => [[c]]
    | w :: ws => if c == sep then [] :: w :: ws else (c :: w) :: ws

/-- The value of a digit below the base. -/
def digitValue (base : Nat) (c : Char) : Option Nat :=
  let n := c.toNat
  let v := if 48 ≤ n && n ≤ 57 then n - 48
    else if 65 ≤ n && n ≤ 70 then n - 55
    else if 97 ≤ n && n ≤ 102 then n - 87
    else base
  if v < base then some v else none

/-- The number that digits spell after the value `acc`. -/
def digitsFrom (base : Nat) : Nat → List Char → Option Nat
  | acc, [] => some acc
  | acc, c :: cs =>
    match digitValue base c with
    | some v => digitsFrom base (acc * base + v) cs
    | none => none

/-- The number that one digit or more spell. -/
def numberText (base : Nat) (t : List Char) : Option Nat :=
  if t.isEmpty then none else digitsFrom base 0 t

/-- A literal: hexadecimal after `0x`, else decimal (30_encoding.md R45). How many digits it may have
and that hexadecimal digits may be of either case is the model's choice: DESIGN CHOICE,
notes/assumptions/8.md. -/
def literalText : List Char → Option Nat
  | '0' :: 'x' :: ds => numberText 16 ds
  | t => numberText 10 t

/-- The literals of an operand list, separated by commas (30_encoding.md R46). -/
def operandsText (t : List Char) : Option (List Nat) :=
  if (trimBlanks t).isEmpty then some []
  else (splitAtChar ',' t).foldr
    (fun p acc => match literalText (trimBlanks p), acc with
      | some v, some vs => some (v :: vs)
      | _, _ => none)
    (some [])

/-- The line of a mnemonic and its operands; mnemonics are case-insensitive (30_encoding.md R45). The
reserved op has no mnemonic. -/
def lineOf (mnemonic : List Char) (operands : List Nat) : Option AsmLine :=
  let m := mnemonic.map Char.toUpper
  if m = ['N', 'O', 'P'] then if operands = [] then some .nop else none
  else if m = ['I', 'N', 'I', 'T'] then if operands = [] then some .init else none
  else if m = ['U', 'P', 'D', 'A', 'T', 'E'] then
    match operands with
    | [b] => some (.update b)
    | _ => none
  else if m = ['F', 'E', 'E', 'D'] then some (.feed operands)
  else if m = ['C', 'R', 'C'] then some (.crc operands)
  else none

/-- The commands of one line of text: none for a blank line, and `;` starts a comment
(30_encoding.md R45). -/
def assembleLine (t : List Char) : Option (List Instr) :=
  let l := trimBlanks (t.takeWhile (· != ';'))
  if l.isEmpty then some []
  else
    match operandsText (l.dropWhile fun c => !isBlank c) with
    | some vs =>
      match lineOf (l.takeWhile fun c => !isBlank c) vs with
      | some a => expand a
      | none => none
    | none => none

/-- The commands of a program text, one command a line, in order (30_encoding.md R45, R47). -/
def assemble (t : List Char) : Option (List Instr) :=
  (splitAtChar '\n' t).foldr
    (fun l acc => match assembleLine l, acc with
      | some is, some rest => some (is ++ rest)
      | _, _ => none)
    (some [])

/-- The capital hexadecimal digit of a nibble. -/
def hexDigit (n : Nat) : Char := if n < 10 then Char.ofNat (48 + n) else Char.ofNat (55 + n)

/-- The two hexadecimal digits of a byte. -/
def hexByte (b : Byte) : List Char := [hexDigit (b.toNat / 16), hexDigit (b.toNat % 16)]

/-- The disassembler: NOP and INIT without their data field (30_encoding.md R43), a reserved word as
`.word 0x3NN` (R45). -/
def disassemble (w : CmdWord) : List Char :=
  match decode w with
  | .nop => ['N', 'O', 'P']
  | .init => ['I', 'N', 'I', 'T']
  | .update b => ['U', 'P', 'D', 'A', 'T', 'E', ' ', '0', 'x'] ++ hexByte b
  | .reserved d => ['.', 'w', 'o', 'r', 'd', ' ', '0', 'x', '3'] ++ hexByte d

/-- The listing of a command stream, one line a word, in order (30_encoding.md R45, R47). -/
def listing : List CmdWord → List Char
  | [] => []
  | w :: ws => disassemble w ++ '\n' :: listing ws

end Sys2Proof.Machine
end

