-- ==== Sys2Proof/Machine/CrcForms.lean ====
section
/-! DEFINITION. The byte table T (95_test_vectors.md section 3) and the other forms of Upd that the spec
states: the table form (40_crc_commands.md R56), the bit-serial form (20_memory.md R34) and the
remainder modulo the generator (40_crc_commands.md R55). The machine steps by `upd`; these are what
claims compare it with. -/

namespace Sys2Proof.Machine

/-- T[0x00] to T[0x0F], copied from 95_test_vectors.md section 3. -/
def tableRow0 : List Word16 :=
  [0x0000, 0xC0C1, 0xC181, 0x0140, 0xC301, 0x03C0, 0x0280, 0xC241,
   0xC601, 0x06C0, 0x0780, 0xC741, 0x0500, 0xC5C1, 0xC481, 0x0440]

/-- T[0x10] to T[0x1F], copied from 95_test_vectors.md section 3. -/
def tableRow1 : List Word16 :=
  [0xCC01, 0x0CC0, 0x0D80, 0xCD41, 0x0F00, 0xCFC1, 0xCE81, 0x0E40,
   0x0A00, 0xCAC1, 0xCB81, 0x0B40, 0xC901, 0x09C0, 0x0880, 0xC841]

/-- T[0x20] to T[0x2F], copied from 95_test_vectors.md section 3. -/
def tableRow2 : List Word16 :=
  [0xD801, 0x18C0, 0x1980, 0xD941, 0x1B00, 0xDBC1, 0xDA81, 0x1A40,
   0x1E00, 0xDEC1, 0xDF81, 0x1F40, 0xDD01, 0x1DC0, 0x1C80, 0xDC41]

/-- T[0x30] to T[0x3F], copied from 95_test_vectors.md section 3. -/
def tableRow3 : List Word16 :=
  [0x1400, 0xD4C1, 0xD581, 0x1540, 0xD701, 0x17C0, 0x1680, 0xD641,
   0xD201, 0x12C0, 0x1380, 0xD341, 0x1100, 0xD1C1, 0xD081, 0x1040]

/-- T[0x40] to T[0x4F], copied from 95_test_vectors.md section 3. -/
def tableRow4 : List Word16 :=
  [0xF001, 0x30C0, 0x3180, 0xF141, 0x3300, 0xF3C1, 0xF281, 0x3240,
   0x3600, 0xF6C1, 0xF781, 0x3740, 0xF501, 0x35C0, 0x3480, 0xF441]

/-- T[0x50] to T[0x5F], copied from 95_test_vectors.md section 3. -/
def tableRow5 : List Word16 :=
  [0x3C00, 0xFCC1, 0xFD81, 0x3D40, 0xFF01, 0x3FC0, 0x3E80, 0xFE41,
   0xFA01, 0x3AC0, 0x3B80, 0xFB41, 0x3900, 0xF9C1, 0xF881, 0x3840]

/-- T[0x60] to T[0x6F], copied from 95_test_vectors.md section 3. -/
def tableRow6 : List Word16 :=
  [0x2800, 0xE8C1, 0xE981, 0x2940, 0xEB01, 0x2BC0, 0x2A80, 0xEA41,
   0xEE01, 0x2EC0, 0x2F80, 0xEF41, 0x2D00, 0xEDC1, 0xEC81, 0x2C40]

/-- T[0x70] to T[0x7F], copied from 95_test_vectors.md section 3. -/
def tableRow7 : List Word16 :=
  [0xE401, 0x24C0, 0x2580, 0xE541, 0x2700, 0xE7C1, 0xE681, 0x2640,
   0x2200, 0xE2C1, 0xE381, 0x2340, 0xE101, 0x21C0, 0x2080, 0xE041]

/-- T[0x80] to T[0x8F], copied from 95_test_vectors.md section 3. -/
def tableRow8 : List Word16 :=
  [0xA001, 0x60C0, 0x6180, 0xA141, 0x6300, 0xA3C1, 0xA281, 0x6240,
   0x6600, 0xA6C1, 0xA781, 0x6740, 0xA501, 0x65C0, 0x6480, 0xA441]

/-- T[0x90] to T[0x9F], copied from 95_test_vectors.md section 3. -/
def tableRow9 : List Word16 :=
  [0x6C00, 0xACC1, 0xAD81, 0x6D40, 0xAF01, 0x6FC0, 0x6E80, 0xAE41,
   0xAA01, 0x6AC0, 0x6B80, 0xAB41, 0x6900, 0xA9C1, 0xA881, 0x6840]

/-- T[0xA0] to T[0xAF], copied from 95_test_vectors.md section 3. -/
def tableRowA : List Word16 :=
  [0x7800, 0xB8C1, 0xB981, 0x7940, 0xBB01, 0x7BC0, 0x7A80, 0xBA41,
   0xBE01, 0x7EC0, 0x7F80, 0xBF41, 0x7D00, 0xBDC1, 0xBC81, 0x7C40]

/-- T[0xB0] to T[0xBF], copied from 95_test_vectors.md section 3. -/
def tableRowB : List Word16 :=
  [0xB401, 0x74C0, 0x7580, 0xB541, 0x7700, 0xB7C1, 0xB681, 0x7640,
   0x7200, 0xB2C1, 0xB381, 0x7340, 0xB101, 0x71C0, 0x7080, 0xB041]

/-- T[0xC0] to T[0xCF], copied from 95_test_vectors.md section 3. -/
def tableRowC : List Word16 :=
  [0x5000, 0x90C1, 0x9181, 0x5140, 0x9301, 0x53C0, 0x5280, 0x9241,
   0x9601, 0x56C0, 0x5780, 0x9741, 0x5500, 0x95C1, 0x9481, 0x5440]

/-- T[0xD0] to T[0xDF], copied from 95_test_vectors.md section 3. -/
def tableRowD : List Word16 :=
  [0x9C01, 0x5CC0, 0x5D80, 0x9D41, 0x5F00, 0x9FC1, 0x9E81, 0x5E40,
   0x5A00, 0x9AC1, 0x9B81, 0x5B40, 0x9901, 0x59C0, 0x5880, 0x9841]

/-- T[0xE0] to T[0xEF], copied from 95_test_vectors.md section 3. -/
def tableRowE : List Word16 :=
  [0x8801, 0x48C0, 0x4980, 0x8941, 0x4B00, 0x8BC1, 0x8A81, 0x4A40,
   0x4E00, 0x8EC1, 0x8F81, 0x4F40, 0x8D01, 0x4DC0, 0x4C80, 0x8C41]

/-- T[0xF0] to T[0xFF], copied from 95_test_vectors.md section 3. -/
def tableRowF : List Word16 :=
  [0x4400, 0x84C1, 0x8581, 0x4540, 0x8701, 0x47C0, 0x4680, 0x8641,
   0x8201, 0x42C0, 0x4380, 0x8341, 0x4100, 0x81C1, 0x8081, 0x4040]

/-- The table T as the spec prints it (95_test_vectors.md section 3). -/
def crcTable : List Word16 :=
  tableRow0 ++ tableRow1 ++ tableRow2 ++ tableRow3 ++ tableRow4 ++ tableRow5 ++ tableRow6 ++ tableRow7
    ++ tableRow8 ++ tableRow9 ++ tableRowA ++ tableRowB ++ tableRowC ++ tableRowD ++ tableRowE ++ tableRowF

/-- `T[i]` (40_crc_commands.md R56). -/
def tableEntry (i : Byte) : Word16 := crcTable.getD i.toNat 0

/-- The table form of Upd (40_crc_commands.md R56). -/
def updByTable (c : Word16) (b : Byte) : Word16 :=
  (c >>> 8) ^^^ tableEntry (lowByte (c ^^^ zext16 b))

/-- One bit fed to the register: the feedback is the register's bit 0 against the data bit
(20_memory.md R34). -/
def feedBit (t : Word16) (bit : Bool) : Word16 :=
  if t.getLsbD 0 ^^ bit then (t >>> 1) ^^^ Config.polynomial else t >>> 1

/-- A byte fed bit by bit, `b[0]` first and `b[7]` last (20_memory.md R34). -/
def updBitSerial (c : Word16) (b : Byte) : Word16 :=
  [b.getLsbD 0, b.getLsbD 1, b.getLsbD 2, b.getLsbD 3, b.getLsbD 4, b.getLsbD 5, b.getLsbD 6,
    b.getLsbD 7].foldl feedBit c

/-- The product of two polynomials over GF(2), bit i the coefficient of x^i. -/
def polyMul {w : Nat} (a g : BitVec w) : BitVec w :=
  (List.range w).foldl (fun acc i => if a.getLsbD i then acc ^^^ (g <<< i) else acc) 0

/-- The generator x^16 + x^15 + x^2 + 1 (40_crc_commands.md R55). -/
def generator : BitVec 24 := (1#24 <<< 16) ^^^ Config.polynomialNormal.setWidth 24

/-- The polynomial of a register value: bit-reversed, so that bit 15 is the constant term
(40_crc_commands.md R55: "bit-reflected operands"). -/
def registerPoly (c : Word16) : BitVec 24 := c.reverse.setWidth 24

/-- The polynomial of a data byte, bit-reversed (40_crc_commands.md R55). -/
def bytePoly (b : Byte) : BitVec 24 := b.reverse.setWidth 24

end Sys2Proof.Machine
end

