-- ==== Sys2Proof/Machine/Flags.lean ====
section
/-! DEFINITION. The block stores no flag and no condition code (10_state.md R19). Its one status
signal is the comparator `match`, computed afresh at every observation. -/

namespace Sys2Proof.Machine

/-- `match = 1` exactly when `crc = cmp_hi ∥ cmp_lo` (41_outputs_and_frames.md R63). -/
def matchSignal (crc : Word16) (cmpLo cmpHi : Byte) : Bool := crc == joinBytes cmpHi cmpLo

end Sys2Proof.Machine
end

