-- ==== Sys2Proof/Machine/Outputs.lean ====
section
/-! DEFINITION. The outputs and their observation between steps (41_outputs_and_frames.md R61 to R64). -/

namespace Sys2Proof.Machine

/-- `crc_q = crc` (41_outputs_and_frames.md R61). -/
def observeCrcQ (s : State) : Except Fault Word16 := s.readCrc (.output .crcQ)

/-- `crc_lo = crc[7:0]`, the first trailer byte on the wire (41_outputs_and_frames.md R62). -/
def observeCrcLo (s : State) : Except Fault Byte := (s.readCrc (.output .crcLo)).map lowByte

/-- `crc_hi = crc[15:8]`, the second trailer byte on the wire (41_outputs_and_frames.md R62). -/
def observeCrcHi (s : State) : Except Fault Byte := (s.readCrc (.output .crcHi)).map highByte

/-- `match` against the trailer presented on `cmp_lo` and `cmp_hi` (41_outputs_and_frames.md R63). -/
def observeMatch (cmpLo cmpHi : Byte) (s : State) : Except Fault Bool :=
  (s.readCrc (.output .matchOut)).map fun c => matchSignal c cmpLo cmpHi

/-- The state after an output has been observed: as it was, but that an observation at ⊥ sets
`fault_mark` (41_outputs_and_frames.md R64; 60_exceptions.md R75). An observation is made "in any
state", a marked one too: notes/assumptions/12.md. -/
def stateAfterObserving (o : Output) (s : State) : State :=
  match s.readCrc (.output o) with
  | .ok _ => s
  | .error f => s.recordFault f

end Sys2Proof.Machine
end

