-- ==== Sys2Proof/Machine/System.lean ====
section
/-! DEFINITION. A system with one instance per direction (00_scope.md R6; 60_exceptions.md R82): each
has its own register, marks, ports and reset, and they share nothing. Each takes its consumer's pairs at
its own port, listed or free. -/

namespace Sys2Proof.Machine

/-- The path an instance serves (60_exceptions.md R82; 70_reset_and_hazards.md R91). -/
inductive Path where
  | encoding
  | decoding
  deriving DecidableEq, Repr

/-- The two instances of the source's system (60_exceptions.md R82). -/
structure System where
  encoder : State
  decoder : State
  deriving DecidableEq, Repr

/-- The instance of a path. -/
def System.at (sys : System) : Path → State
  | .encoding => sys.encoder
  | .decoding => sys.decoder

/-- The system with the instance of a path replaced. -/
def System.set (sys : System) (p : Path) (s : State) : System :=
  match p with
  | .encoding => { sys with encoder := s }
  | .decoding => { sys with decoder := s }

/-- The port of each path's instance: "its own ports" (60_exceptions.md R82). The numbers differ from each
other and from that of an instance that stands alone, so that nothing relates their consumers' free
pairs. DESIGN CHOICE, safe: notes/assumptions/16.md. -/
def Path.port : Path → Nat
  | .encoding => 1
  | .decoding => 2

/-- The step of a path's instance, at its own port (60_exceptions.md R82). -/
def System.stepOf (sys : System) (p : Path) : Host.Outcome State Fault Refusal :=
  takeStepOn p.port (sys.at p)

/-- One instance takes a step and the other is as it was (60_exceptions.md R82; 20_memory.md R37: "not
ordered with respect to each other", so the path is an argument). Where the instance faults or is
refused, the outcome is that instance's reason and carries no system: DESIGN CHOICE, safe,
notes/assumptions/15.md. The spec stops that instance only, and `System.stateAfterAt` is the system
it leaves. -/
def System.stepAt (sys : System) (p : Path) : Host.Outcome System Fault Refusal :=
  match sys.stepOf p with
  | .next t => .next (sys.set p t)
  | .fault f => .fault f
  | .refused r => .refused r

/-- The system after a step of one instance, whatever its outcome: that instance with its own mark
recorded where it stopped, the other as it was (60_exceptions.md R82: "Each has its own `crc` and
marks"; 10_state.md R25). DESIGN CHOICE, safe: notes/assumptions/15.md. -/
def System.stateAfterAt (sys : System) (p : Path) : System :=
  sys.set p (stateAfterOn p.port (sys.at p))

end Sys2Proof.Machine
end

