-- ==== Sys2Proof/Safety.lean ====
section
/-! DEFINITION. The terms in which claims speak of safe runs. -/

namespace Sys2Proof.Machine

/-- No mark is set: the premise of every claim about a run (10_state.md R25). -/
abbrev State.unmarked (s : State) : Prop := s.faultMark = none ∧ s.refuseMark = none

/-- Ready: no mark is set and `crc` holds a value, as after a reset or an INIT
(70_reset_and_hazards.md R87). -/
abbrev State.ready (s : State) : Prop := s.unmarked ∧ s.crc.isSome

/-- `crc` is the CRC of the bytes `m`: those fed since the last INIT or reset
(40_crc_commands.md R50; 10_state.md R21). -/
abbrev State.holdsCrcOf (s : State) (m : List Byte) : Prop := s.crc = some (crc16 m)

/-- The bytes fed since the last INIT or reset, after one pair more (40_crc_commands.md R51 to R53;
70_reset_and_hazards.md R85). -/
def fedAfter (m : List Byte) (p : PortPair) : List Byte :=
  if p.rst then []
  else
    match decode p.cmd with
    | .nop => m
    | .init => []
    | .update b => m ++ [b]
    | .reserved _ => m

end Sys2Proof.Machine
end

