-- ==== Sys2Proof/Certificates/Slice0/Obligations.lean ====
section
/-! DEFINITION. The statements about the model, each from the numbered rules of spec/ that its
docstring cites. -/

open Sys2Proof Sys2Proof.Machine

/-- 30_encoding.md R44: the decoder is total and goes by `op` alone. -/
def Obligations.DecodeSelectsByOpField : Prop :=
  (∀ (op : BitVec 2) (d : Byte), decode (commandWord op d) =
    if op = 0b00#2 then .nop
    else if op = 0b01#2 then .init
    else if op = 0b10#2 then .update d
    else .reserved d) ∧
  ∀ w : CmdWord, w = commandWord (opField w) (dataField w)

/-- 30_encoding.md R40, R43, R45: no bit of an encoding is dropped, and only the ignored data field of NOP and INIT is normalised. -/
def Obligations.EncodeAndDecodeAgree : Prop :=
  (∀ i : Instr, decode (encode i) = i) ∧ ∀ w : CmdWord, encode (decode w) = canonicalWord w

/-- Words of 95_test_vectors.md sections 2.1 to 2.3 and program P5, decoded by 30_encoding.md R44. -/
def Obligations.SpecWordsDecodeAsWritten : Prop :=
  decode 0x000 = .nop ∧ decode 0x0A5 = .nop ∧ decode 0x100 = .init ∧ decode 0x1FF = .init ∧
  decode 0x201 = .update 0x01 ∧ decode 0x280 = .update 0x80 ∧ decode 0x2FF = .update 0xFF ∧
  decode 0x300 = .reserved 0x00 ∧ decode 0x3A5 = .reserved 0xA5 ∧ decode 0x3FF = .reserved 0xFF

/-- 30_encoding.md R40: match and mask over the 10-bit word. -/
def Obligations.WordMatchesOnlyItsOwnRow : Prop :=
  ∀ w : CmdWord, (decode w).row ∈ opcodeTable ∧
    ∀ r ∈ opcodeTable, (w &&& r.mask = r.bits ↔ r = (decode w).row)

/-- 30_encoding.md R43, R45, R47: mnemonics, byte literals, one command a line. DESIGN CHOICE, notes/assumptions/8.md, on which the round trip rests: the listing ends in a line break and a blank line gives no command, a byte is printed as two capital hexadecimal digits, and the `.word` line of a reserved word is an assembly error. -/
def Obligations.ListingAssemblesBack : Prop :=
  (∀ ws : List CmdWord, (∀ w ∈ ws, (decode w).isDefined = true) →
    assemble (listing ws) = some (ws.map decode)) ∧
  ∀ ws : List CmdWord, (∃ w ∈ ws, opField w = 0b11#2) → assemble (listing ws) = none

/-- 30_encoding.md R46: the expansions of FEED and CRC, and CRC's purpose. That the commands run from `inputs` and leave the pairs behind them there is the model's choice (DESIGN CHOICE, notes/assumptions/2.md). -/
def Obligations.PseudoInstructionsExpand : Prop :=
  (∀ bs : List Byte, expand (.crc (bs.map BitVec.toNat)) = some (.init :: bs.map .update)) ∧
  (∀ bs : List Byte, bs ≠ [] → expand (.feed (bs.map BitVec.toNat)) = some (bs.map .update)) ∧
  ∀ (bs : List Byte) (is : List Instr) (s : State) (rest : List PortPair), s.unmarked →
    expand (.crc (bs.map BitVec.toNat)) = some is →
    core.run is.length { s with inputs := commandPairs is ++ rest } =
      .next { s with crc := some (crc16 bs), inputs := rest }

/-- 40_crc_commands.md R50. -/
def Obligations.Crc16FoldsUpdFromInitialValue : Prop :=
  crc16 [] = 0xFFFF ∧ (∀ (m : List Byte) (b : Byte), crc16 (m ++ [b]) = upd (crc16 m) b) ∧
  crc16 [0x31, 0x32, 0x33, 0x34, 0x35, 0x36, 0x37, 0x38, 0x39] = 0x4B37

/-- 20_memory.md R34 with 40_crc_commands.md R49: within a byte bit 0 is taken first and bit 7 last. -/
def Obligations.UpdTakesBitZeroFirst : Prop :=
  ∀ (c : Word16) (b : Byte), upd c b = updBitSerial c b

/-- 40_crc_commands.md R56; the table is the one 95_test_vectors.md section 3 prints. -/
def Obligations.UpdIsLinearAndEqualsTableForm : Prop :=
  (∀ (c c' : Word16) (b b' : Byte), upd (c ^^^ c') (b ^^^ b') = upd c b ^^^ upd c' b') ∧
  (∀ (c : Word16) (b : Byte), upd c b = upd c 0x00 ^^^ upd 0x0000 b) ∧
  (∀ i : Byte, crcTable[i.toNat]? = some (upd 0x0000 i)) ∧
  ∀ (c : Word16) (b : Byte), upd c b = updByTable c b

/-- 40_crc_commands.md R57. -/
def Obligations.UpdIsBijectiveInTheRegister : Prop :=
  (∀ b : Byte, Function.Bijective fun c : Word16 => upd c b) ∧
  ∀ b : Byte, upd 0x0000 b = 0x0000 ↔ b = 0x00

/-- 40_crc_commands.md R58, the residue law. -/
def Obligations.OwnBytesClearTheRegister : Prop :=
  (∀ c : Word16, upd (upd c (lowByte c)) (highByte c) = 0x0000) ∧
  (∀ m : List Byte, crc16 (m ++ [lowByte (crc16 m), highByte (crc16 m)]) = 0x0000) ∧
  ∀ m : List Byte, crc16 (encodeFrame m) = 0x0000

/-- 40_crc_commands.md R59. -/
def Obligations.TrailerIsUnique : Prop :=
  ∀ c : Word16, (Function.Bijective fun p : Byte × Byte => upd (upd c p.1) p.2) ∧
    ∀ lo hi : Byte, upd (upd c lo) hi = 0x0000 ↔ lo = lowByte c ∧ hi = highByte c

/-- 40_crc_commands.md R55 (there from general knowledge, G5): Upd is a polynomial remainder with bit-reflected operands; 0x8005 is the generator's normal form (90_conflicts.md C1). -/
def Obligations.UpdIsRemainderModuloGenerator : Prop :=
  ∀ (c : Word16) (b : Byte), ∃ q : BitVec 24, q.toNat < 2 ^ 8 ∧
    (registerPoly c <<< 8) ^^^ (bytePoly b <<< 16) =
      polyMul q generator ^^^ registerPoly (upd c b)

/-- 40_crc_commands.md R60, with its reasons. -/
def Obligations.SingleBitErrorIsDetected : Prop :=
  (∀ (m : List Byte) (k j : Nat), k < m.length + 2 → j < 8 →
    checkFrame (flipBit (encodeFrame m) k j) = some false) ∧
  (∀ (m : List Byte) (k j : Nat), m.length ≤ k → k < m.length + 2 → j < 8 →
    ∃ lo hi : Byte, splitTrailer (flipBit (encodeFrame m) k j) = some (m, lo, hi) ∧
      joinBytes hi lo ≠ crc16 m) ∧
  (∀ (m : List Byte) (k j : Nat), k < m.length → j < 8 →
    crc16 (flipBit m k j) =
      crc16 m ^^^ (fun c => upd c 0x00)^[m.length - 1 - k] (upd 0x0000 (1#8 <<< j))) ∧
  ∀ n j : Nat, j < 8 → (fun c => upd c 0x00)^[n] (upd 0x0000 (1#8 <<< j)) ≠ 0x0000

/-- 40_crc_commands.md R51: the result, the frame and the completion of NOP. NOP does not read `crc`, so it runs at ⊥. That the words of the last clause run from `inputs`, and that only `inputs` then differs, is the model's choice (DESIGN CHOICE, notes/assumptions/2.md). -/
def Obligations.NopHoldsTheRegister : Prop :=
  (∀ s : State, exec .nop s = .next s) ∧
  (∀ d : Byte, decode (commandWord 0b00#2 d) = .nop) ∧ encode .nop = 0x000 ∧
  ∀ (ds : List Byte) (s : State) (rest : List PortPair), s.unmarked →
    core.run ds.length
      { s with inputs := ds.map (fun d => commandPair (commandWord 0b00#2 d)) ++ rest } =
      .next { s with inputs := rest }

/-- 40_crc_commands.md R52: the result, the frame and the completion of INIT. -/
def Obligations.InitLoadsTheInitialValue : Prop :=
  (∀ s : State, exec .init s = .next { s with crc := some 0xFFFF }) ∧
  (∀ d : Byte, decode (commandWord 0b01#2 d) = .init) ∧ encode .init = 0x100 ∧
  (∀ s : State, s.crc = some 0xFFFF → exec .init s = .next s) ∧
  ∀ s t : State, exec .init s = .next t → exec .init t = .next t

/-- 40_crc_commands.md R53: the result, the frame, the completion and the one fault of UPDATE, and its corner cases. No hypothesis bounds how many bytes came before. -/
def Obligations.UpdateFoldsOneByte : Prop :=
  (∀ (s : State) (c : Word16) (b : Byte), s.crc = some c →
    exec (.update b) s = .next { s with crc := some (upd c b) }) ∧
  (∀ (s : State) (b : Byte), s.crc = none →
    exec (.update b) s = .fault (.readUnset (.command (commandWord 0b10#2 b)))) ∧
  (∀ d : Byte, decode (commandWord 0b10#2 d) = .update d ∧
    encode (.update d) = 0x200 + d.setWidth 10) ∧
  upd 0xFFFF 0x00 = 0x40BF ∧ upd 0xFFFF 0xFF = 0x00FF ∧ upd 0xFFFF 0x01 = 0x807E ∧
  (∀ c : Word16, upd c 0x00 = c ↔ c = 0x0000 ∨ c = 0xC001) ∧
  ∀ b : Byte, ∃! c : Word16, upd c b = 0x0000

/-- 40_crc_commands.md R54: the model refuses the reserved op (the stop of every path of this row). R54's hardware decision is not stated: "No claim may rest on this". -/
def Obligations.ReservedWordIsRefused : Prop :=
  (∀ (s : State) (d : Byte),
    exec (.reserved d) s = .refused (.reservedOp (commandWord 0b11#2 d))) ∧
  (∀ w : CmdWord, (Refusal.reservedOp w).code = some 1) ∧
  ∀ s : State, s.unmarked → s.nextPair.rst = false → opField s.nextPair.cmd = 0b11#2 →
    step s = .refused (.reservedOp s.nextPair.cmd) ∧
    (stateAfter s).refuseMark = some .reservedOp ∧
    (stateAfter s).crc = s.crc ∧ (stateAfter s).faultMark = s.faultMark

/-- 10_state.md R16, R19 and 20_memory.md R36: the frame of every command that completes. The block has no other register, no flag and no memory. -/
def Obligations.CommandFrame : Prop :=
  ∀ (i : Instr) (s t : State), exec i s = .next t →
    t.faultMark = s.faultMark ∧ t.refuseMark = s.refuseMark ∧ t.inputs = s.inputs ∧
    t.drawn = s.drawn ∧ (i = .nop → t.crc = s.crc) ∧ (i ≠ .nop → t.crc ≠ none) ∧
    ∀ d : Byte, i ≠ .reserved d

/-- 40_crc_commands.md R48 and 10_state.md R23. That the consumer's pairs stand in `inputs` and are free values beyond them is the model's choice (notes/assumptions/2.md and 3.md). -/
def Obligations.StepRunsTheDecodedCommand : Prop :=
  (∀ (s : State) (w : CmdWord), s.unmarked → s.nextPair = ⟨false, w⟩ →
    step s = exec (decode w) s.afterPair) ∧
  (∀ (s : State) (p : PortPair) (rest : List PortPair), s.inputs = p :: rest →
    s.nextPair = p ∧ s.afterPair = { s with inputs := rest }) ∧
  ∀ s : State, s.inputs = [] →
    s.nextPair = ⟨Config.freeRst Config.solePort s.drawn, Config.freeCmd Config.solePort s.drawn⟩ ∧
    s.afterPair = { s with drawn := s.drawn + 1 }

/-- 30_encoding.md R44 and 40_crc_commands.md R48, for a word the consumer issues next (notes/assumptions/2.md). -/
def Obligations.TableWordRunsAsTheNextStep : Prop :=
  ∀ (s : State) (nbits w : Nat), s.unmarked → w < 1024 → w < 2 ^ nbits →
    ∃ i : Instr, decodeTableWord nbits w = some i ∧ step (s.withFetchWord nbits w) = exec i s

/-- 60_exceptions.md R78 with 40_crc_commands.md R48, written out on the bits of `cmd`. That no step is answered by a fault of its own name is the model's choice (notes/assumptions/4.md). -/
def Obligations.StepTakesConditionsInOrder : Prop :=
  (∀ s : State, ¬ s.unmarked → step s = .fault .quiescent) ∧
  (∀ s : State, s.unmarked → s.nextPair.rst = true →
    step s = .next { s.afterPair with crc := some 0xFFFF }) ∧
  (∀ s : State, s.unmarked → s.nextPair.rst = false → opField s.nextPair.cmd = 0b11#2 →
    step s = .refused (.reservedOp s.nextPair.cmd)) ∧
  (∀ s : State, s.unmarked → s.nextPair.rst = false → opField s.nextPair.cmd = 0b10#2 →
    s.crc = none → step s = .fault (.readUnset (.command s.nextPair.cmd))) ∧
  (∀ (s : State) (c : Word16), s.unmarked → s.nextPair.rst = false →
    opField s.nextPair.cmd = 0b10#2 → s.crc = some c →
    step s = .next { s.afterPair with crc := some (upd c (dataField s.nextPair.cmd)) }) ∧
  (∀ s : State, s.unmarked → s.nextPair.rst = false → opField s.nextPair.cmd = 0b01#2 →
    step s = .next { s.afterPair with crc := some 0xFFFF }) ∧
  ∀ s : State, s.unmarked → s.nextPair.rst = false → opField s.nextPair.cmd = 0b00#2 →
    step s = .next s.afterPair

/-- 70_reset_and_hazards.md R85. -/
def Obligations.ResetLoadsTheInitialValue : Prop :=
  (∀ s : State, s.unmarked → s.nextPair.rst = true →
    ∃ t : State, step s = .next t ∧ t.crc = some 0xFFFF ∧ t.faultMark = s.faultMark ∧
      t.refuseMark = s.refuseMark) ∧
  (∀ (s : State) (w : CmdWord), stepPair ⟨true, w⟩ s = .next { s with crc := some 0xFFFF }) ∧
  ∀ s : State, ¬ s.unmarked → (∀ t : State, step s ≠ .next t) ∧ stateAfter s = s

/-- 10_state.md R25, 40_crc_commands.md R48 and 60_exceptions.md R80. -/
def Obligations.MarksAreSetOnceAndStopTheMachine : Prop :=
  (∀ (s : State) (f : Fault), s.unmarked → step s = .fault f →
    (stateAfter s).faultMark = some .readUnset ∧ (stateAfter s).refuseMark = s.refuseMark) ∧
  (∀ (s : State) (r : Refusal), step s = .refused r →
    (stateAfter s).refuseMark = some .reservedOp ∧ (stateAfter s).faultMark = s.faultMark) ∧
  (∀ s : State, ¬ s.unmarked → (∀ t : State, step s ≠ .next t) ∧ stateAfter s = s) ∧
  ∀ s t : State, step s = .next t → t.faultMark = s.faultMark ∧ t.refuseMark = s.refuseMark

/-- 60_exceptions.md R79 and 20_memory.md R36: a fault or refusal is precise. -/
def Obligations.StoppedStepLeavesTheRegister : Prop :=
  ∀ s : State, (∀ t : State, step s ≠ .next t) → (stateAfter s).crc = s.crc

/-- 60_exceptions.md R74. -/
def Obligations.OutcomeCodesAreTheListed : Prop :=
  (∀ (s : State) (r : Refusal), s.unmarked → (step s = .refused r ↔
    s.nextPair.rst = false ∧ opField s.nextPair.cmd = 0b11#2 ∧
      r = .reservedOp s.nextPair.cmd)) ∧
  (∀ (s : State) (f : Fault), s.unmarked → (step s = .fault f ↔
    s.nextPair.rst = false ∧ opField s.nextPair.cmd = 0b10#2 ∧ s.crc = none ∧
      f = .readUnset (.command s.nextPair.cmd))) ∧
  (∀ w : CmdWord, (Refusal.reservedOp w).code = some 1) ∧
  ∀ src : ReadSource, (Fault.readUnset src).code = some 2

/-- 10_state.md R23 and 20_memory.md R37. DESIGN CHOICE: the list, the counter, and that a fault or a refusal has taken its pair are the model's own (notes/assumptions/2.md, 3.md and 6.md). -/
def Obligations.EachStepTakesOnePair : Prop :=
  (∀ s t : State, step s = .next t → t.inputs = s.inputs.tail ∧
    (s.inputs ≠ [] → t.drawn = s.drawn) ∧ (s.inputs = [] → t.drawn = s.drawn + 1)) ∧
  ∀ s : State, s.unmarked → (stateAfter s).inputs = s.inputs.tail ∧
    (s.inputs ≠ [] → (stateAfter s).drawn = s.drawn) ∧
    (s.inputs = [] → (stateAfter s).drawn = s.drawn + 1)

/-- 10_state.md R16: the register is written only by INIT, UPDATE and reset. -/
def Obligations.OnlyInitUpdateAndResetWriteTheRegister : Prop :=
  ∀ s t : State, step s = .next t → t.crc ≠ s.crc →
    s.nextPair.rst = true ∨ opField s.nextPair.cmd = 0b01#2 ∨ opField s.nextPair.cmd = 0b10#2

/-- 10_state.md R16, R25 and 70_reset_and_hazards.md R87: once given a value, the register keeps one, and ReadUnset cannot arise. -/
def Obligations.ReadinessIsKeptByEveryStep : Prop :=
  (∀ s t : State, s.ready → step s = .next t → t.ready) ∧
  ∀ s : State, s.ready → (∃ t : State, step s = .next t) ∨
    (s.nextPair.rst = false ∧ opField s.nextPair.cmd = 0b11#2 ∧
      step s = .refused (.reservedOp s.nextPair.cmd))

/-- 10_state.md R27: the invariants of the two statements about every step hold at reset. -/
def Obligations.ResetStateIsReady : Prop :=
  State.reset.ready ∧ State.reset.holdsCrcOf []

/-- 10_state.md R21: the CRC of a byte string depends on those bytes alone, and no state outside `crc` carries between commands. -/
def Obligations.RegisterIsCrcOfTheBytesFed : Prop :=
  ∀ (s t : State) (m : List Byte), s.holdsCrcOf m → step s = .next t →
    t.holdsCrcOf (fedAfter m s.nextPair)

/-- 41_outputs_and_frames.md R67 with 70_reset_and_hazards.md R95 (the count of steps) and R92 (the result is there at once). That the pairs stand in `inputs` is the model's choice (DESIGN CHOICE, notes/assumptions/2.md). -/
def Obligations.EncoderSequenceLeavesCrc16 : Prop :=
  ∀ (m : List Byte) (s : State) (rest : List PortPair), s.unmarked →
    ∃ t : State,
      core.run (1 + m.length) { s with inputs := commandPairs (crcCommands m) ++ rest } = .next t ∧
      observeCrcQ t = .ok (crc16 m) ∧ observeCrcLo t = .ok (lowByte (crc16 m)) ∧
      observeCrcHi t = .ok (highByte (crc16 m)) ∧ t.inputs = rest ∧ t.unmarked

/-- 41_outputs_and_frames.md R69 with R68 and R63. That the pairs stand in `inputs` is the model's choice (DESIGN CHOICE, notes/assumptions/2.md). -/
def Obligations.DecoderSequenceGivesTheVerdict : Prop :=
  ∀ (m : List Byte) (lo hi : Byte) (s : State) (rest : List PortPair), s.unmarked →
    ∃ (t : State) (v : Bool),
      core.run (1 + m.length) { s with inputs := commandPairs (crcCommands m) ++ rest } = .next t ∧
      observeMatch lo hi t = .ok v ∧ checkFrame (m ++ [lo, hi]) = some v ∧
      (v = true ↔ lo = lowByte (crc16 m) ∧ hi = highByte (crc16 m))

/-- 41_outputs_and_frames.md R71 with R68. That the commands run from `inputs`, and that fewer than 2 bytes get no verdict, is the model's choice (DESIGN CHOICE, notes/assumptions/2.md and 10.md). -/
def Obligations.ResidueGivesTheSameVerdict : Prop :=
  (∀ f : List Byte, 2 ≤ f.length → checkFrame f = some (checkByResidue f)) ∧
  ∀ (f : List Byte) (s : State) (rest : List PortPair), s.unmarked → 2 ≤ f.length →
    ∃ (t : State) (c : Word16),
      core.run (1 + f.length) { s with inputs := commandPairs (crcCommands f) ++ rest } = .next t ∧
      observeCrcQ t = .ok c ∧ (c = 0x0000 ↔ checkFrame f = some true)

/-- 41_outputs_and_frames.md R72, the block's part of the source's testable properties 1 and 2. -/
def Obligations.EncodedFramesRoundTrip : Prop :=
  (∀ m : List Byte, checkFrame (encodeFrame m) = some true ∧ checkByResidue (encodeFrame m) = true) ∧
  (∀ (m : List Byte) (k j : Nat), k < (encodeFrame m).length → j < 8 →
    checkFrame (flipBit (encodeFrame m) k j) = some false ∧
    checkByResidue (flipBit (encodeFrame m) k j) = false) ∧
  ∀ msg : Message, acceptFrame (encodeFrame msg.covered) = some msg

/-- 41_outputs_and_frames.md R65 and R66, 20_memory.md R32. -/
def Obligations.EncodedFrameLayout : Prop :=
  (∀ msg : Message, encodeFrame msg.covered =
    [msg.slaveId, msg.functionCode] ++ msg.data ++
      [(crc16 ([msg.slaveId, msg.functionCode] ++ msg.data)).extractLsb' 0 8,
        (crc16 ([msg.slaveId, msg.functionCode] ++ msg.data)).extractLsb' 8 8]) ∧
  ∀ msg : Message, msg.data.length ≤ Config.maxEncodedData →
    (encodeFrame msg.covered).length = msg.data.length + 4 ∧
    4 ≤ (encodeFrame msg.covered).length ∧
    (encodeFrame msg.covered).length ≤ Config.maxEncodedFrame

/-- 70_reset_and_hazards.md R90 with R88: an INIT discards what an abandoned computation left. That both runs take their commands from `inputs` is the model's choice (DESIGN CHOICE, notes/assumptions/2.md). -/
def Obligations.InitForgetsEarlierBytes : Prop :=
  ∀ (s s' : State) (is : List Instr) (rest rest' : List PortPair), s.unmarked → s'.unmarked →
    definedStream is = true →
    ∃ t t' : State,
      core.run (1 + is.length) { s with inputs := commandPairs (.init :: is) ++ rest } = .next t ∧
      core.run (1 + is.length) { s' with inputs := commandPairs (.init :: is) ++ rest' } = .next t' ∧
      t.crc = t'.crc

/-- 70_reset_and_hazards.md R88, with the bijection of 40_crc_commands.md R57: the result differs from `CRC16` of the frame whenever the register did not stand at 0xFFFF. That the commands run from `inputs` and leave the pairs behind them there is the model's choice (DESIGN CHOICE, notes/assumptions/2.md). -/
def Obligations.WithoutInitTheOldValueCounts : Prop :=
  (∀ (m : List Byte) (s : State) (c : Word16) (rest : List PortPair), s.unmarked → s.crc = some c →
    core.run m.length { s with inputs := commandPairs (feedCommands m) ++ rest } =
      .next { s with crc := some (crcFrom c m), inputs := rest }) ∧
  ∀ (m : List Byte) (c : Word16), crcFrom c m = crc16 m ↔ c = 0xFFFF

/-- 70_reset_and_hazards.md R89 with R85. That the pairs stand in `inputs`, which then holds those behind them, is the model's choice (DESIGN CHOICE, notes/assumptions/2.md). -/
def Obligations.ResetStandsInForInit : Prop :=
  ∀ (m : List Byte) (w : CmdWord) (s : State) (rest : List PortPair), s.unmarked →
    core.run (1 + m.length)
      { s with inputs := ⟨true, w⟩ :: (commandPairs (feedCommands m) ++ rest) } =
      .next { s with crc := some (crc16 m), inputs := rest }

/-- 10_state.md R16 ("every 16-bit value is reachable") with 40_crc_commands.md R59. -/
def Obligations.TwoUpdatesReachEveryValue : Prop :=
  ∀ (s : State) (c v : Word16), s.crc = some c →
    ∃ (lo hi : Byte) (t u : State), exec (.update lo) s = .next t ∧ exec (.update hi) t = .next u ∧
      u.crc = some v

/-- 41_outputs_and_frames.md R61 and R63, and the values of R62. -/
def Obligations.OutputsShowTheRegister : Prop :=
  (∀ (s : State) (c : Word16), s.crc = some c →
    observeCrcQ s = .ok c ∧ observeCrcLo s = .ok (c.extractLsb' 0 8) ∧
    observeCrcHi s = .ok (c.extractLsb' 8 8) ∧
    ∀ cmpLo cmpHi : Byte, observeMatch cmpLo cmpHi s = .ok (decide (c = cmpHi ++ cmpLo))) ∧
  ∀ s : State, s.crc = none →
    observeCrcQ s = .error (.readUnset (.output .crcQ)) ∧
    observeCrcLo s = .error (.readUnset (.output .crcLo)) ∧
    observeCrcHi s = .error (.readUnset (.output .crcHi)) ∧
    ∀ cmpLo cmpHi : Byte, observeMatch cmpLo cmpHi s = .error (.readUnset (.output .matchOut))

/-- 41_outputs_and_frames.md R64. That a marked state can be observed is read from "in any state" (notes/assumptions/12.md). -/
def Obligations.ObservationHasNoSideEffect : Prop :=
  ∀ (o : Output) (s : State), (s.crc ≠ none → stateAfterObserving o s = s) ∧
    (s.crc = none → stateAfterObserving o s = { s with faultMark := some .readUnset })

/-- 60_exceptions.md R75. -/
def Obligations.ReadUnsetStopsTheInstance : Prop :=
  (∀ (s : State) (b : Byte), s.unmarked → s.crc = none →
    s.nextPair = ⟨false, commandWord 0b10#2 b⟩ →
    step s = .fault (.readUnset (.command (commandWord 0b10#2 b))) ∧
    (stateAfter s).crc = none ∧ (stateAfter s).faultMark = some .readUnset ∧
    ∀ t : State, step (stateAfter s) ≠ .next t) ∧
  ∀ (o : Output) (s : State), s.crc = none →
    (stateAfterObserving o s).crc = none ∧
    (stateAfterObserving o s).faultMark = some .readUnset ∧
    ∀ t : State, step (stateAfterObserving o s) ≠ .next t

/-- 10_state.md R27, the whole table. -/
def Obligations.ResetAndPowerUpValues : Prop :=
  (State.powerUp.crc = none ∧ State.powerUp.faultMark = none ∧ State.powerUp.refuseMark = none ∧
    observeCrcQ State.powerUp = .error (.readUnset (.output .crcQ)) ∧
    observeCrcLo State.powerUp = .error (.readUnset (.output .crcLo)) ∧
    observeCrcHi State.powerUp = .error (.readUnset (.output .crcHi)) ∧
    ∀ lo hi : Byte, observeMatch lo hi State.powerUp = .error (.readUnset (.output .matchOut))) ∧
  (State.reset.faultMark = none ∧ State.reset.refuseMark = none) ∧
  (∀ t : State,
    (t = State.reset ∨ (∃ (s : State) (w : CmdWord), stepPair ⟨true, w⟩ s = .next t) ∨
      ∃ s : State, exec .init s = .next t) →
    t.crc = some 0xFFFF ∧ observeCrcQ t = .ok 0xFFFF ∧ observeCrcLo t = .ok 0xFF ∧
    observeCrcHi t = .ok 0xFF ∧
    ∀ lo hi : Byte, observeMatch lo hi t = .ok (decide (joinBytes hi lo = 0xFFFF))) ∧
  ∀ s t : State, ((∃ w : CmdWord, stepPair ⟨true, w⟩ s = .next t) ∨ exec .init s = .next t) →
    t.faultMark = s.faultMark ∧ t.refuseMark = s.refuseMark

/-- 60_exceptions.md R84 with 10_state.md R17 and 70_reset_and_hazards.md R87. -/
def Obligations.PowerLossUnsetsTheRegister : Prop :=
  ∀ s : State, s.powerLoss.crc = none ∧
    (∀ b : Byte, exec (.update b) s.powerLoss =
      .fault (.readUnset (.command (commandWord 0b10#2 b)))) ∧
    ∃ t : State, exec .init s.powerLoss = .next t ∧ t.crc = some 0xFFFF

/-- 60_exceptions.md R82 and 20_memory.md R37: instances share no state and are not ordered with respect to each other. That a stop of one instance is recorded in `System.stateAfterAt`, beside the other as it was, is the model's choice of form (DESIGN CHOICE, notes/assumptions/15.md). -/
def Obligations.PathsShareNoState : Prop :=
  (∀ (sys : System) (p : Path) (t : State), sys.stepOf p = .next t →
    sys.stepAt p = .next (sys.set p t) ∧ (sys.set p t).at p = t ∧
    ∀ q : Path, q ≠ p → (sys.set p t).at q = sys.at q) ∧
  (∀ (sys : System) (a b : State), sys.stepOf .encoding = .next a → sys.stepOf .decoding = .next b →
    ∃ x y : System, sys.stepAt .encoding = .next x ∧ sys.stepAt .decoding = .next y ∧
      x.stepAt .decoding = .next ⟨a, b⟩ ∧ y.stepAt .encoding = .next ⟨a, b⟩) ∧
  ∀ (sys : System) (p q : Path), q ≠ p →
    (sys.stateAfterAt p).at p = stateAfterOn p.port (sys.at p) ∧
    (sys.stateAfterAt p).at q = sys.at q ∧
    ∀ t : State, sys.stepOf q = .next t →
      (sys.stateAfterAt p).stepAt q = .next ((sys.stateAfterAt p).set q t)

/-- 60_exceptions.md R82 ("its own ports and its own reset") with 10_state.md R23. That the pairs stand in `inputs` and are free values of the port beyond them is the model's choice (DESIGN CHOICE, notes/assumptions/2.md, 3.md and 16.md). -/
def Obligations.InstancesTakePairsAtTheirOwnPorts : Prop :=
  (∀ p q : Path, p ≠ q → p.port ≠ q.port) ∧
  (∀ (sys : System) (p : Path), (sys.at p).unmarked →
    sys.stepOf p = stepPair ((sys.at p).nextPairOn p.port) (sys.at p).afterPair) ∧
  (∀ (sys : System) (p : Path) (x : PortPair) (rest : List PortPair),
    (sys.at p).inputs = x :: rest →
    (sys.at p).nextPairOn p.port = x ∧ sys.stepOf p = step (sys.at p)) ∧
  ∀ (sys : System) (p : Path), (sys.at p).inputs = [] →
    (sys.at p).nextPairOn p.port =
      ⟨Config.freeRst p.port (sys.at p).drawn, Config.freeCmd p.port (sys.at p).drawn⟩
end

