-- ==== Sys2Proof/Laws/Crc.lean ====
section
/-! SUPPORT. The small lemmas of the CRC function: its loop and its fold. -/

namespace Sys2Proof.Machine

@[simp] theorem shiftSteps_zero (t : Word16) : shiftSteps 0 t = t := rfl
theorem shiftSteps_succ (n : Nat) (t : Word16) : shiftSteps (n + 1) t = shiftSteps n (shiftStep t) := rfl

theorem shiftSteps_add (m n : Nat) (t : Word16) :
    shiftSteps (m + n) t = shiftSteps n (shiftSteps m t) := by
  induction m generalizing t with
  | zero => simp
  | succ m ih => rw [Nat.succ_add, shiftSteps_succ, shiftSteps_succ, ih]

@[simp] theorem crcFrom_nil (c : Word16) : crcFrom c [] = c := rfl
@[simp] theorem crcFrom_cons (c : Word16) (b : Byte) (m : List Byte) :
    crcFrom c (b :: m) = crcFrom (upd c b) m := rfl

theorem crcFrom_append (c : Word16) (m n : List Byte) :
    crcFrom c (m ++ n) = crcFrom (crcFrom c m) n := List.foldl_append

end Sys2Proof.Machine
end

