-- ==== Sys2Proof/Laws/Operands.lean ====
section
/-! SUPPORT. The fields of a command word and the bytes of a register value, taken apart and put
together. -/

namespace Sys2Proof

theorem opField_commandWord (op : BitVec 2) (d : Byte) : opField (commandWord op d) = op := by
  apply BitVec.eq_of_getLsbD_eq
  intro i hi
  unfold opField commandWord
  rw [BitVec.getLsbD_extractLsb', BitVec.getLsbD_append]
  simp [hi]

theorem dataField_commandWord (op : BitVec 2) (d : Byte) : dataField (commandWord op d) = d := by
  apply BitVec.eq_of_getLsbD_eq
  intro i hi
  unfold dataField commandWord
  rw [BitVec.getLsbD_extractLsb', BitVec.getLsbD_append]
  simp [hi]

namespace Machine

theorem lowByte_joinBytes (hi lo : Byte) : lowByte (joinBytes hi lo) = lo := by
  apply BitVec.eq_of_getLsbD_eq
  intro i h
  unfold lowByte joinBytes
  rw [BitVec.getLsbD_extractLsb', BitVec.getLsbD_append]
  simp [h]

theorem highByte_joinBytes (hi lo : Byte) : highByte (joinBytes hi lo) = hi := by
  apply BitVec.eq_of_getLsbD_eq
  intro i h
  unfold highByte joinBytes
  rw [BitVec.getLsbD_extractLsb', BitVec.getLsbD_append]
  simp [h]

theorem joinBytes_own (v : Word16) : joinBytes (highByte v) (lowByte v) = v := by
  apply BitVec.eq_of_getLsbD_eq
  intro i h
  unfold joinBytes highByte lowByte
  rw [BitVec.getLsbD_append]
  by_cases h8 : i < 8
  · simp [h8]
  · have h7 : i - 8 < 8 := by omega
    have h0 : 8 + (i - 8) = i := by omega
    rw [BitVec.getLsbD_extractLsb', BitVec.getLsbD_extractLsb']
    simp [h8, h7, h0]

/-- A byte pair is the pair of a register value's own bytes exactly when joining gives the value. -/
theorem joinBytes_eq_iff (hi lo : Byte) (v : Word16) :
    joinBytes hi lo = v ↔ lo = lowByte v ∧ hi = highByte v := by
  constructor
  · rintro rfl
    exact ⟨(lowByte_joinBytes hi lo).symm, (highByte_joinBytes hi lo).symm⟩
  · rintro ⟨rfl, rfl⟩
    exact joinBytes_own v

end Machine

end Sys2Proof
end

