-- ==== Sys2Proof/Laws/State.lean ====
section
/-! SUPPORT. What each update of the state does to each field, so that no later proof unfolds a record
update. -/

namespace Sys2Proof.Machine

variable (s : State) (v : Word16) (p : PortPair) (ps : List PortPair) (fr : FaultReason) (rr : RefuseReason)

@[simp] theorem State.writeCrc_crc : (s.writeCrc v).crc = some v := rfl
@[simp] theorem State.writeCrc_faultMark : (s.writeCrc v).faultMark = s.faultMark := rfl
@[simp] theorem State.writeCrc_refuseMark : (s.writeCrc v).refuseMark = s.refuseMark := rfl
@[simp] theorem State.writeCrc_inputs : (s.writeCrc v).inputs = s.inputs := rfl
@[simp] theorem State.writeCrc_drawn : (s.writeCrc v).drawn = s.drawn := rfl

@[simp] theorem State.resetCrc_crc : s.resetCrc.crc = some Config.initialValue := rfl
@[simp] theorem State.resetCrc_faultMark : s.resetCrc.faultMark = s.faultMark := rfl
@[simp] theorem State.resetCrc_refuseMark : s.resetCrc.refuseMark = s.refuseMark := rfl
@[simp] theorem State.resetCrc_inputs : s.resetCrc.inputs = s.inputs := rfl
@[simp] theorem State.resetCrc_drawn : s.resetCrc.drawn = s.drawn := rfl

@[simp] theorem State.powerLoss_crc : s.powerLoss.crc = none := rfl
@[simp] theorem State.powerLoss_faultMark : s.powerLoss.faultMark = s.faultMark := rfl
@[simp] theorem State.powerLoss_refuseMark : s.powerLoss.refuseMark = s.refuseMark := rfl
@[simp] theorem State.powerLoss_inputs : s.powerLoss.inputs = s.inputs := rfl
@[simp] theorem State.powerLoss_drawn : s.powerLoss.drawn = s.drawn := rfl

@[simp] theorem State.markFault_crc : (s.markFault fr).crc = s.crc := rfl
@[simp] theorem State.markFault_faultMark :
    (s.markFault fr).faultMark = (s.faultMark <|> some fr) := rfl
@[simp] theorem State.markFault_refuseMark : (s.markFault fr).refuseMark = s.refuseMark := rfl
@[simp] theorem State.markFault_inputs : (s.markFault fr).inputs = s.inputs := rfl
@[simp] theorem State.markFault_drawn : (s.markFault fr).drawn = s.drawn := rfl

@[simp] theorem State.markRefusal_crc : (s.markRefusal rr).crc = s.crc := rfl
@[simp] theorem State.markRefusal_faultMark : (s.markRefusal rr).faultMark = s.faultMark := rfl
@[simp] theorem State.markRefusal_refuseMark :
    (s.markRefusal rr).refuseMark = (s.refuseMark <|> some rr) := rfl
@[simp] theorem State.markRefusal_inputs : (s.markRefusal rr).inputs = s.inputs := rfl
@[simp] theorem State.markRefusal_drawn : (s.markRefusal rr).drawn = s.drawn := rfl

@[simp] theorem State.issueFirst_crc : (s.issueFirst p).crc = s.crc := rfl
@[simp] theorem State.issueFirst_faultMark : (s.issueFirst p).faultMark = s.faultMark := rfl
@[simp] theorem State.issueFirst_refuseMark : (s.issueFirst p).refuseMark = s.refuseMark := rfl
@[simp] theorem State.issueFirst_inputs : (s.issueFirst p).inputs = p :: s.inputs := rfl
@[simp] theorem State.issueFirst_drawn : (s.issueFirst p).drawn = s.drawn := rfl

@[simp] theorem State.issue_crc : (s.issue ps).crc = s.crc := rfl
@[simp] theorem State.issue_faultMark : (s.issue ps).faultMark = s.faultMark := rfl
@[simp] theorem State.issue_refuseMark : (s.issue ps).refuseMark = s.refuseMark := rfl
@[simp] theorem State.issue_inputs : (s.issue ps).inputs = s.inputs ++ ps := rfl
@[simp] theorem State.issue_drawn : (s.issue ps).drawn = s.drawn := rfl

@[simp] theorem State.afterPair_crc : s.afterPair.crc = s.crc := by
  unfold State.afterPair; split <;> rfl
@[simp] theorem State.afterPair_faultMark : s.afterPair.faultMark = s.faultMark := by
  unfold State.afterPair; split <;> rfl
@[simp] theorem State.afterPair_refuseMark : s.afterPair.refuseMark = s.refuseMark := by
  unfold State.afterPair; split <;> rfl
@[simp] theorem State.afterPair_inputs : s.afterPair.inputs = s.inputs.tail := by
  unfold State.afterPair; split <;> simp_all
@[simp] theorem State.afterPair_drawn :
    s.afterPair.drawn = if s.inputs = [] then s.drawn + 1 else s.drawn := by
  unfold State.afterPair; split <;> simp_all

/-- Issuing a pair first and taking it gives the state back. -/
@[simp] theorem State.issueFirst_nextPairOn (port : Nat) :
    (s.issueFirst p).nextPairOn port = p := rfl
@[simp] theorem State.issueFirst_nextPair : (s.issueFirst p).nextPair = p := rfl
@[simp] theorem State.issueFirst_afterPair : (s.issueFirst p).afterPair = s := rfl

end Sys2Proof.Machine
end

