-- ==== Sys2Proof/Laws/Ops.lean ====
section
/-! SUPPORT. One lemma per shared operation that says everything it can do. -/

namespace Sys2Proof.Machine

/-- A read of the register gives its value or faults at ⊥ (60_exceptions.md R75). -/
theorem State.readCrc_cases (s : State) (src : ReadSource) :
    (∃ c, s.crc = some c ∧ s.readCrc src = .ok c) ∨
      (s.crc = none ∧ s.readCrc src = .error (.readUnset src)) := by
  unfold State.readCrc
  cases h : s.crc <;> simp

@[simp] theorem State.readCrc_of_some {s : State} {c : Word16} (h : s.crc = some c)
    (src : ReadSource) : s.readCrc src = .ok c := by
  simp [State.readCrc, h]

@[simp] theorem State.readCrc_of_none {s : State} (h : s.crc = none) (src : ReadSource) :
    s.readCrc src = .error (.readUnset src) := by
  simp [State.readCrc, h]

/-- No mark is set exactly when both marks are none (10_state.md R25). -/
theorem State.marked_eq_false_iff (s : State) : s.marked = false ↔ s.unmarked := by
  simp [State.marked, State.unmarked]

/-- The record of a fault touches one field at most (60_exceptions.md R79). -/
theorem State.recordFault_cases (s : State) (f : Fault) :
    (∃ src, f = .readUnset src ∧ s.recordFault f = s.markFault .readUnset) ∨
      (f = .quiescent ∧ s.recordFault f = s) := by
  cases f <;> simp [State.recordFault, Fault.reason]

@[simp] theorem State.recordFault_crc (s : State) (f : Fault) : (s.recordFault f).crc = s.crc := by
  cases f <;> rfl

@[simp] theorem State.recordFault_inputs (s : State) (f : Fault) :
    (s.recordFault f).inputs = s.inputs := by
  cases f <;> rfl

@[simp] theorem State.recordFault_drawn (s : State) (f : Fault) :
    (s.recordFault f).drawn = s.drawn := by
  cases f <;> rfl

@[simp] theorem State.recordRefusal_inputs (s : State) (r : Refusal) :
    (s.recordRefusal r).inputs = s.inputs := by
  cases r <;> rfl

@[simp] theorem State.recordRefusal_drawn (s : State) (r : Refusal) :
    (s.recordRefusal r).drawn = s.drawn := by
  cases r <;> rfl

@[simp] theorem State.recordRefusal_crc (s : State) (r : Refusal) :
    (s.recordRefusal r).crc = s.crc := by
  cases r <;> rfl

/-- The pair a step takes, where one is listed (10_state.md R23). -/
theorem State.nextPairOn_of_cons {s : State} {p : PortPair} {rest : List PortPair} (port : Nat)
    (h : s.inputs = p :: rest) : s.nextPairOn port = p := by
  simp [State.nextPairOn, h]

theorem State.nextPair_of_cons {s : State} {p : PortPair} {rest : List PortPair}
    (h : s.inputs = p :: rest) : s.nextPair = p :=
  State.nextPairOn_of_cons Config.solePort h

/-- The pair a step takes, where none is listed: the free pair of its own port. -/
theorem State.nextPairOn_of_nil {s : State} (port : Nat) (h : s.inputs = []) :
    s.nextPairOn port = ⟨Config.freeRst port s.drawn, Config.freeCmd port s.drawn⟩ := by
  simp [State.nextPairOn, h]

theorem State.afterPair_of_cons {s : State} {p : PortPair} {rest : List PortPair}
    (h : s.inputs = p :: rest) : s.afterPair = { s with inputs := rest } := by
  simp [State.afterPair, h]

end Sys2Proof.Machine
end

