-- ==== Sys2Proof/Laws/PerInstr.lean ====
section
/-! SUPPORT. The family EncodesInRow: the encoding of a command is a word of that command's row of the
opcode table (30_encoding.md R40). -/

namespace Sys2Proof.Laws.EncodesInRow

/-- The command's row stands in the table, and the command's word matches it. -/
def Statement (i : Instr) : Prop := i.row ∈ opcodeTable ∧ i.row.matchesWord (encode i) = true

theorem nop : Statement .nop := by unfold Statement; decide

theorem init : Statement .init := by unfold Statement; decide

theorem update (b : Byte) : Statement (.update b) := by
  refine ⟨by simp [Instr.row, opcodeTable], ?_⟩
  simp only [Instr.row, OpcodeRow.matchesWord, encode, commandWord, beq_iff_eq]
  revert b
  decide

theorem reserved (d : Byte) : Statement (.reserved d) := by
  refine ⟨by simp [Instr.row, opcodeTable], ?_⟩
  simp only [Instr.row, OpcodeRow.matchesWord, encode, commandWord, beq_iff_eq]
  revert d
  decide

end Sys2Proof.Laws.EncodesInRow
end

