-- ==== Sys2Proof/Laws/Step.lean ====
section
/-! SUPPORT. What a command and a step can do, once: the inversion lemmas that claims about steps
cite. -/

namespace Sys2Proof.Machine

/-- The next states of a command (40_crc_commands.md R51 to R53). -/
theorem exec_next_cases {i : Instr} {s t : State} (h : exec i s = .next t) :
    (i = .nop ∧ t = s) ∨ (i = .init ∧ t = s.writeCrc Config.initialValue) ∨
      ∃ b c, i = .update b ∧ s.crc = some c ∧ t = s.writeCrc (upd c b) := by
  cases i with
  | nop => simp_all [exec, execNop]
  | init => simp_all [exec, execInit]
  | update b =>
    obtain ⟨c, hc, hr⟩ | ⟨_, hr⟩ := s.readCrc_cases (.command (encode (.update b))) <;>
      simp_all [exec, execUpdate]
  | reserved d => simp [exec, execReserved] at h

/-- The faults of a command (40_crc_commands.md R53). -/
theorem exec_fault_cases {i : Instr} {s : State} {f : Fault} (h : exec i s = .fault f) :
    ∃ b, i = .update b ∧ s.crc = none ∧ f = .readUnset (.command (encode (.update b))) := by
  cases i with
  | nop => simp [exec, execNop] at h
  | init => simp [exec, execInit] at h
  | update b =>
    obtain ⟨c, hc, hr⟩ | ⟨_, hr⟩ := s.readCrc_cases (.command (encode (.update b))) <;>
      simp_all [exec, execUpdate]
  | reserved d => simp [exec, execReserved] at h

/-- The refusals of a command (40_crc_commands.md R54). -/
theorem exec_refused_cases {i : Instr} {s : State} {r : Refusal} (h : exec i s = .refused r) :
    ∃ d, i = .reserved d ∧ r = .reservedOp (encode (.reserved d)) := by
  cases i with
  | nop => simp [exec, execNop] at h
  | init => simp [exec, execInit] at h
  | update b =>
    obtain ⟨c, hc, hr⟩ | ⟨_, hr⟩ := s.readCrc_cases (.command (encode (.update b))) <;>
      simp_all [exec, execUpdate]
  | reserved d => simp_all [exec, execReserved]

/-- A step at a port that answers a next state ran from an unmarked state and was a reset or a command
(60_exceptions.md R78). -/
theorem takeStepOn_next_cases {port : Nat} {s t : State} (h : takeStepOn port s = .next t) :
    s.marked = false ∧
      (((s.nextPairOn port).rst = true ∧ t = s.afterPair.resetCrc) ∨
        ((s.nextPairOn port).rst = false ∧
          exec (decode (s.nextPairOn port).cmd) s.afterPair = .next t)) := by
  simp only [takeStepOn] at h
  split at h
  · simp at h
  · rename_i hm
    refine ⟨by simpa using hm, ?_⟩
    simp only [stepPair] at h
    split at h
    · exact .inl ⟨‹_›, by simpa using h.symm⟩
    · rename_i hr
      exact .inr ⟨by simpa using hr, h⟩

/-- The same of an instance that stands alone. -/
theorem step_next_cases {s t : State} (h : step s = .next t) :
    s.marked = false ∧
      ((s.nextPair.rst = true ∧ t = s.afterPair.resetCrc) ∨
        (s.nextPair.rst = false ∧ exec (decode s.nextPair.cmd) s.afterPair = .next t)) :=
  takeStepOn_next_cases h

/-- A step from an unmarked state is what its pair does (40_crc_commands.md R48). -/
theorem takeStepOn_of_unmarked {s : State} (port : Nat) (h : s.unmarked) :
    takeStepOn port s = stepPair (s.nextPairOn port) s.afterPair := by
  simp [takeStepOn, (State.marked_eq_false_iff s).2 h]

theorem step_of_unmarked {s : State} (h : s.unmarked) : step s = stepPair s.nextPair s.afterPair :=
  takeStepOn_of_unmarked Config.solePort h

/-- A marked state takes no step (10_state.md R25). -/
theorem takeStepOn_of_marked {s : State} (port : Nat) (h : s.marked = true) :
    takeStepOn port s = .fault .quiescent := by
  simp [takeStepOn, h]

theorem step_of_marked {s : State} (h : s.marked = true) : step s = .fault .quiescent :=
  takeStepOn_of_marked Config.solePort h

/-- Where a pair is listed, the port plays no part in a step. -/
theorem takeStepOn_of_listed {s : State} (port : Nat) (h : s.inputs ≠ []) :
    takeStepOn port s = step s := by
  obtain ⟨p, rest, hp⟩ := List.exists_cons_of_ne_nil h
  simp [step, takeStep, takeStepOn, State.nextPairOn_of_cons _ hp]

/-- What a step leaves of a marked state, and of an unmarked one (10_state.md R25;
40_crc_commands.md R48). -/
theorem stateAfterOn_of_marked {s : State} (port : Nat) (h : s.marked = true) :
    stateAfterOn port s = s := by
  simp [stateAfterOn, h]

theorem stateAfterOn_of_unmarked {s : State} (port : Nat) (h : s.unmarked) :
    stateAfterOn port s = settle s.afterPair (takeStepOn port s) := by
  simp [stateAfterOn, (State.marked_eq_false_iff s).2 h]

theorem stateAfter_of_marked {s : State} (h : s.marked = true) : stateAfter s = s :=
  stateAfterOn_of_marked Config.solePort h

theorem stateAfter_of_unmarked {s : State} (h : s.unmarked) :
    stateAfter s = settle s.afterPair (step s) :=
  stateAfterOn_of_unmarked Config.solePort h

/-- A machine's run goes on from the next state of its first step. -/
theorem run_of_core_step (M : Host.Core) (k : Nat) (a b : M.State) (h : M.step a = .next b) :
    M.run (k + 1) a = M.run k b := by
  simp [Host.Core.run, h]

/-- The same for this machine. -/
theorem run_of_step {s t : State} (k : Nat) (h : step s = .next t) :
    core.run (k + 1) s = core.run k t :=
  run_of_core_step core k s t h

@[simp] theorem run_zero (s : State) : core.run 0 s = .next s := rfl

end Sys2Proof.Machine
end

