-- ==== Sys2Proof/Laws/System.lean ====
section
/-! SUPPORT. What a step of one instance can do to a system (60_exceptions.md R82). -/

namespace Sys2Proof.Machine

variable (sys : System) (p q : Path) (s : State)

/-- Replacing an instance is seen at its own path and at no other. -/
theorem System.at_set : (sys.set p s).at q = if q = p then s else sys.at q := by
  cases p <;> cases q <;> rfl

@[simp] theorem System.at_set_self : (sys.set p s).at p = s := by
  simp [System.at_set]

theorem System.at_set_of_ne {p q : Path} (h : q ≠ p) : (sys.set p s).at q = sys.at q := by
  simp [System.at_set, h]

/-- The system's outcome at a path is that of the path's instance, with its next state put in its
place. -/
theorem System.stepAt_cases :
    (∃ t, sys.stepOf p = .next t ∧ sys.stepAt p = .next (sys.set p t)) ∨
      (∃ f, sys.stepOf p = .fault f ∧ sys.stepAt p = .fault f) ∨
      ∃ r, sys.stepOf p = .refused r ∧ sys.stepAt p = .refused r := by
  unfold System.stepAt
  cases h : sys.stepOf p <;> simp

/-- No two instances share a port (60_exceptions.md R82). -/
theorem Path.port_injective : Function.Injective Path.port := by
  intro p q h
  cases p <;> cases q <;> simp_all [Path.port]

end Sys2Proof.Machine
end

