-- ==== Sys2Proof/Tests/Slice0.lean ====
section
/-! SUPPORT. The model's own tests. Expected values come from spec/95_test_vectors.md, named in each
test, or are worked out by hand from the rule named there. The witnesses at the end show, for each
statement that has hypotheses, a state and operands that meet them. -/

namespace Sys2Proof.Tests

open Sys2Proof.Machine

/-- An unmarked state with the given register value and pairs to take. -/
def sample (c : Option Word16) (ps : List PortPair) : State :=
  { crc := c, faultMark := none, refuseMark := none, inputs := ps, drawn := 0 }

/-- A marked state, as V7 leaves it. -/
def refusedSample : State :=
  { crc := some 0x1234, faultMark := none, refuseMark := some .reservedOp, inputs := [⟨true, 0x000⟩],
    drawn := 0 }

/-! ### The well-formedness checks refuse an ill-formed term each (30_encoding.md R42, R45, R46) -/

theorem test_reserved_is_not_defined : (Instr.reserved 0xA5).isDefined = false := by decide
theorem test_stream_with_reserved_refused :
    definedStream [.init, .update 0x01, .reserved 0xA5] = false := by decide
theorem test_byte_literal_256_refused : isByteLiteral 255 = true ∧ isByteLiteral 256 = false := by decide
theorem test_command_word_1024_refused :
    isCommandWord 1023 = true ∧ isCommandWord 1024 = false := by decide
theorem test_line_update_256_refused : (AsmLine.update 256).wellFormed = false := by decide
theorem test_line_feed_without_operand_refused : (AsmLine.feed []).wellFormed = false := by decide
theorem test_line_feed_256_refused : (AsmLine.feed [0, 256]).wellFormed = false := by decide
theorem test_line_crc_256_refused :
    (AsmLine.crc [256]).wellFormed = false ∧ (AsmLine.crc []).wellFormed = true := by decide

/-! ### Words written out from 30_encoding.md R39, R40: `oo dddddddd` -/

theorem test_decode_nop : decode 0b0000000000 = .nop ∧ decode 0b0010100101 = .nop := by decide
theorem test_decode_init : decode 0b0100000000 = .init ∧ decode 0b0111111111 = .init := by decide
theorem test_decode_update :
    decode 0b1000000001 = .update 0x01 ∧ decode 0b1010000000 = .update 0x80 := by decide
theorem test_decode_reserved : decode 0b1110100101 = .reserved 0xA5 := by decide

/-- 30_encoding.md R45: `UPDATE b` is `0x200 + b`. -/
theorem test_encode_canonical :
    encode .nop = 0x000 ∧ encode .init = 0x100 ∧ encode (.update 0x83) = 0x283 := by decide

/-- 30_encoding.md R40: the rows do not overlap. -/
theorem test_rows_disjoint :
    opcodeTable.Pairwise fun r q => r.bits &&& (r.mask &&& q.mask) ≠ q.bits &&& (r.mask &&& q.mask) := by
  decide

/-- 30_encoding.md R42: of the four op values, each with 256 words, three are defined. -/
theorem test_defined_words :
    ∀ d : Byte, (decode (commandWord 0b00#2 d)).isDefined = true ∧
      (decode (commandWord 0b01#2 d)).isDefined = true ∧
      (decode (commandWord 0b10#2 d)).isDefined = true ∧
      (decode (commandWord 0b11#2 d)).isDefined = false := by
  decide

theorem test_table_word_reads_row :
    decodeTableWord 16 0x2FF = some (.update 0xFF) ∧ decodeTableWord 16 0x400 = none := by decide

/-! ### The CRC function -/

/-- 90_conflicts.md C1: the two constants are bit reversals of each other. -/
theorem test_constants_reverse : Config.polynomial.reverse = Config.polynomialNormal := by decide

/-- V21: the eight iterations of Upd(0xFFFF, 0x01), from 0xFFFE. -/
theorem test_shift_trace :
    (List.range 9).map (fun n => shiftSteps n 0xFFFE) =
      [0xFFFE, 0x7FFF, 0x9FFE, 0x4FFF, 0x87FE, 0x43FF, 0x81FE, 0x40FF, 0x807E] := by decide

/-- V5.7, V5.16, V5.20. -/
theorem test_upd_vectors :
    upd 0x0001 0x80 = 0x60C0 ∧ upd 0xA001 0xFF = 0x8021 ∧ upd 0x1234 0xFF = 0x9753 := by decide

/-- V24: the table form. -/
theorem test_table_form : updByTable 0xFFFF 0x01 = 0x807E := by decide

/-- V13: the order of the bytes matters (20_memory.md R37). -/
theorem test_order_matters : crc16 [0x01, 0x02] = 0xE181 ∧ crc16 [0x02, 0x01] = 0x10C1 := by
  decide +kernel

/-- E3, the exception frame of 90_conflicts.md C2. -/
theorem test_frame_e3 : encodeFrame [0x01, 0x83, 0x02] = [0x01, 0x83, 0x02, 0xC0, 0xF1] := by
  decide +kernel

/-- V9.8: `FF FF` passes the check with no covered bytes; the swapped trailer of E3 does not pass. -/
theorem test_check_frame :
    checkFrame [0xFF, 0xFF] = some true ∧ checkFrame [0x01, 0x83, 0x02, 0xF1, 0xC0] = some false ∧
      checkFrame [0xFF] = none := by
  decide +kernel

/-- V17: E2 with bit 7 of its last byte inverted. -/
theorem test_flip_last_bit :
    flipBit [0x01, 0x03, 0x9B, 0xF6] 3 7 = [0x01, 0x03, 0x9B, 0x76] := by decide

/-! ### The commands and the step -/

/-- V4: NOP at ⊥, a next state. -/
theorem test_nop_at_unset : exec .nop (sample none []) = .next (sample none []) := rfl
/-- V3: a non-canonical NOP. -/
theorem test_nop_step :
    step (sample (some 0x807E) [⟨false, 0x0A5⟩]) = .next (sample (some 0x807E) []) := rfl
/-- V1: INIT at ⊥. -/
theorem test_init_at_unset : exec .init (sample none []) = .next (sample (some 0xFFFF) []) := rfl
/-- V2a: a non-canonical INIT. -/
theorem test_init_step :
    step (sample (some 0xCB59) [⟨false, 0x1FF⟩]) = .next (sample (some 0xFFFF) []) := rfl
/-- V5.22. -/
theorem test_update_step :
    step (sample (some 0xFFFF) [⟨false, 0x201⟩]) = .next (sample (some 0x807E) []) := rfl
/-- V6. -/
theorem test_update_at_unset :
    step (sample none [⟨false, 0x201⟩]) = .fault (.readUnset (.command 0x201)) ∧
      stateAfter (sample none [⟨false, 0x201⟩]) =
        { sample none [] with faultMark := some .readUnset } := ⟨rfl, rfl⟩
/-- V7. -/
theorem test_reserved_step :
    step (sample (some 0x1234) [⟨false, 0x300⟩]) = .refused (.reservedOp 0x300) ∧
      stateAfter (sample (some 0x1234) [⟨false, 0x300⟩]) =
        { sample (some 0x1234) [] with refuseMark := some .reservedOp } := ⟨rfl, rfl⟩
/-- V7a: the refusal, not the fault. -/
theorem test_reserved_at_unset :
    step (sample none [⟨false, 0x3FF⟩]) = .refused (.reservedOp 0x3FF) := rfl
/-- V8. -/
theorem test_reset_over_reserved :
    step (sample (some 0x1234) [⟨true, 0x3FF⟩]) = .next (sample (some 0xFFFF) []) := rfl
/-- V8a. -/
theorem test_reset_over_update :
    step (sample none [⟨true, 0x201⟩]) = .next (sample (some 0xFFFF) []) := rfl
/-- P5 run A, step 3: a marked state takes no step. -/
theorem test_marked_takes_no_step :
    step refusedSample = .fault .quiescent ∧ stateAfter refusedSample = refusedSample := ⟨rfl, rfl⟩
/-- A placed word runs first from State.reset (V5.22). -/
theorem test_placed_word_runs :
    step (State.reset.withFetchWord 16 0x201) = .next (sample (some 0x807E) []) := rfl

/-! ### The outputs -/

/-- V15. -/
theorem test_outputs :
    observeCrcQ (sample (some 0xF69B) []) = .ok 0xF69B ∧
      observeCrcLo (sample (some 0xF69B) []) = .ok 0x9B ∧
      observeCrcHi (sample (some 0xF69B) []) = .ok 0xF6 ∧
      observeMatch 0x9B 0xF6 (sample (some 0xF69B) []) = .ok true ∧
      observeMatch 0xF6 0x9B (sample (some 0xF69B) []) = .ok false := ⟨rfl, rfl, rfl, rfl, rfl⟩
/-- V20. -/
theorem test_outputs_at_unset :
    observeMatch 0x00 0x00 (sample none []) = .error (.readUnset (.output .matchOut)) ∧
      stateAfterObserving .crcQ (sample none []) =
        { sample none [] with faultMark := some .readUnset } := ⟨rfl, rfl⟩

/-! ### Assembly text (30_encoding.md R43, R45, R46) -/

/-- `Update 0x83 ; c`: case-insensitive mnemonic, comment. -/
theorem test_assemble_update :
    assembleLine ['U', 'p', 'd', 'a', 't', 'e', ' ', '0', 'x', '8', '3', ' ', ';', ' ', 'c'] =
      some [.update 0x83] := by decide
/-- `UPDATE 255` is a command and `UPDATE 256` an assembly error. -/
theorem test_assemble_byte_range :
    assembleLine ['U', 'P', 'D', 'A', 'T', 'E', ' ', '2', '5', '5'] = some [.update 0xFF] ∧
      assembleLine ['U', 'P', 'D', 'A', 'T', 'E', ' ', '2', '5', '6'] = none := by decide
/-- `CRC 0x01, 2` and then `NOP`. -/
theorem test_assemble_program :
    assemble ['C', 'R', 'C', ' ', '0', 'x', '0', '1', ',', ' ', '2', '\n', 'N', 'O', 'P'] =
      some [.init, .update 0x01, .update 0x02, .nop] := by decide
/-- R43, R45: NOP without its data field, and a reserved word as `.word 0x3A5`. -/
theorem test_disassemble :
    disassemble 0x0A5 = ['N', 'O', 'P'] ∧
      disassemble 0x3A5 = ['.', 'w', 'o', 'r', 'd', ' ', '0', 'x', '3', 'A', '5'] := by decide

/-! ### Witnesses: the hypotheses of each statement are met together -/

theorem witness_ListingAssemblesBack :
    (∀ w ∈ ([0x0FF, 0x1FF, 0x2FF] : List CmdWord), (decode w).isDefined = true) ∧
      ∃ w ∈ ([0x2FF, 0x300] : List CmdWord), opField w = 0b11#2 := by decide

theorem witness_PseudoInstructionsExpand :
    [(0xFF : Byte)] ≠ [] ∧ (sample none []).unmarked ∧
      expand (.crc ([(0xFF : Byte)].map BitVec.toNat)) = some [.init, .update 0xFF] := by decide

theorem witness_SingleBitErrorIsDetected :
    (1 < ([] : List Byte).length + 2 ∧ 7 < 8 ∧ ([] : List Byte).length ≤ 1) ∧
      (0 < [(0x01 : Byte)].length ∧ 0 < 8) := by decide

theorem witness_NopHoldsTheRegister : (sample none []).unmarked := by decide

theorem witness_InitLoadsTheInitialValue :
    (sample (some 0xFFFF) []).crc = some 0xFFFF ∧
      exec .init (sample none []) = .next (sample (some 0xFFFF) []) := ⟨rfl, rfl⟩

theorem witness_UpdateFoldsOneByte :
    (sample (some 0xFFFF) []).crc = some 0xFFFF ∧ (sample none []).crc = none := by decide

/-- Met at ⊥ and with a value, at both ends of the reserved range. -/
theorem witness_ReservedWordIsRefused :
    ((sample none [⟨false, 0x300⟩]).unmarked ∧ (sample none [⟨false, 0x300⟩]).nextPair.rst = false ∧
      opField (sample none [⟨false, 0x300⟩]).nextPair.cmd = 0b11#2) ∧
    opField (sample (some 0x0000) [⟨false, 0x3FF⟩]).nextPair.cmd = 0b11#2 := by decide

theorem witness_CommandFrame :
    exec .nop (sample none []) = .next (sample none []) ∧
      exec (.update 0xFF) (sample (some 0xFFFF) []) = .next (sample (some 0x00FF) []) := ⟨rfl, rfl⟩

theorem witness_StepRunsTheDecodedCommand :
    (sample none [⟨false, 0x3FF⟩]).unmarked ∧
      (sample none [⟨false, 0x3FF⟩]).nextPair = ⟨false, 0x3FF⟩ ∧
      (sample none [⟨false, 0x3FF⟩]).inputs = [⟨false, 0x3FF⟩] ∧ State.reset.inputs = [] := by decide

theorem witness_TableWordRunsAsTheNextStep :
    State.reset.unmarked ∧ 1023 < 1024 ∧ 1023 < 2 ^ 10 := by decide

/-- One state for each condition, at the words where the op ranges meet. -/
theorem witness_StepTakesConditionsInOrder :
    ¬ refusedSample.unmarked ∧
    ((sample none [⟨true, 0x3FF⟩]).unmarked ∧ (sample none [⟨true, 0x3FF⟩]).nextPair.rst = true) ∧
    opField (sample none [⟨false, 0x300⟩]).nextPair.cmd = 0b11#2 ∧
    opField (sample none [⟨false, 0x2FF⟩]).nextPair.cmd = 0b10#2 ∧
    opField (sample (some 0x0000) [⟨false, 0x200⟩]).nextPair.cmd = 0b10#2 ∧
    opField (sample none [⟨false, 0x1FF⟩]).nextPair.cmd = 0b01#2 ∧
    opField (sample none [⟨false, 0x0FF⟩]).nextPair.cmd = 0b00#2 := by decide

theorem witness_ResetLoadsTheInitialValue :
    ((sample none [⟨true, 0x300⟩]).unmarked ∧ (sample none [⟨true, 0x300⟩]).nextPair.rst = true) ∧
      (¬ refusedSample.unmarked ∧ refusedSample.nextPair.rst = true) ∧
      ¬ ({ refusedSample with inputs := [⟨false, 0x000⟩] } : State).unmarked := by decide

theorem witness_MarksAreSetOnceAndStopTheMachine :
    (sample none [⟨false, 0x200⟩]).unmarked ∧
    step (sample none [⟨false, 0x200⟩]) = .fault (.readUnset (.command 0x200)) ∧
    step (sample none [⟨false, 0x300⟩]) = .refused (.reservedOp 0x300) ∧
    ¬ refusedSample.unmarked ∧
    step (sample none [⟨false, 0x000⟩]) = .next (sample none []) :=
  ⟨by decide, rfl, rfl, by decide, rfl⟩

theorem witness_StoppedStepLeavesTheRegister (t : State) :
    step (sample (some 0x807E) [⟨false, 0x3A5⟩]) ≠ .next t ∧
      step (sample none [⟨false, 0x2FF⟩]) ≠ .next t ∧ step refusedSample ≠ .next t :=
  ⟨nofun, nofun, nofun⟩

theorem witness_OutcomeCodesAreTheListed :
    (sample none [⟨false, 0x2FF⟩]).unmarked ∧
      opField (sample none [⟨false, 0x2FF⟩]).nextPair.cmd = 0b10#2 ∧
      opField (sample none [⟨false, 0x300⟩]).nextPair.cmd = 0b11#2 := by decide

theorem witness_EachStepTakesOnePair :
    step (sample (some 0x0000) [⟨false, 0x0FF⟩, ⟨false, 0x100⟩]) =
        .next (sample (some 0x0000) [⟨false, 0x100⟩]) ∧
      (sample none [⟨false, 0x200⟩]).unmarked ∧ (sample none [⟨false, 0x200⟩]).inputs ≠ [] ∧
      State.reset.unmarked ∧ State.reset.inputs = [] := ⟨rfl, by decide⟩

/-- With no pair listed a step completes for every value of the free `rst` that is 1, as its pair is
then a reset: the free value itself stays open (notes/assumptions/3.md). -/
theorem witness_EachStepTakesOnePair_free_pair (h : Config.freeRst Config.solePort 0 = true) :
    State.reset.inputs = [] ∧ step State.reset = .next { State.reset with drawn := 1 } := by
  refine ⟨rfl, ?_⟩
  rw [step_of_unmarked (by decide), stepPair, if_pos (show State.reset.nextPair.rst = true from h)]
  rfl

/-- A register that INIT, an UPDATE and a reset each change. -/
theorem witness_OnlyInitUpdateAndResetWriteTheRegister :
    step (sample (some 0x0000) [⟨false, 0x100⟩]) = .next (sample (some 0xFFFF) []) ∧
    step (sample (some 0x0000) [⟨false, 0x2FF⟩]) = .next (sample (some 0x4040) []) ∧
    step (sample (some 0x0000) [⟨true, 0x000⟩]) = .next (sample (some 0xFFFF) []) ∧
    (sample (some 0xFFFF) []).crc ≠ (sample (some 0x0000) []).crc := ⟨rfl, rfl, rfl, by decide⟩

theorem witness_ReadinessIsKeptByEveryStep :
    (sample (some 0x0000) [⟨false, 0x200⟩]).ready ∧
      step (sample (some 0x0000) [⟨false, 0x200⟩]) = .next (sample (some 0x0000) []) ∧
      (sample (some 0x0000) [⟨false, 0x300⟩]).ready := ⟨by decide, rfl, by decide⟩

theorem witness_RegisterIsCrcOfTheBytesFed :
    (sample (some 0x807E) [⟨false, 0x206⟩]).holdsCrcOf [0x01] ∧
      step (sample (some 0x807E) [⟨false, 0x206⟩]) = .next (sample (some 0x2280) []) ∧
      fedAfter [0x01] ⟨false, 0x206⟩ = [0x01, 0x06] := ⟨by decide, rfl, by decide⟩

/-- The hypothesis of the statements about the encoder's and the decoder's sequence and about a reset
in the place of INIT: an unmarked state, at power-up and with a value. -/
theorem witness_sequences_from_unmarked : State.powerUp.unmarked ∧ State.reset.unmarked := by decide

theorem witness_ResidueGivesTheSameVerdict :
    2 ≤ [(0xFF : Byte), 0xFF].length ∧ State.powerUp.unmarked := by decide

theorem witness_EncodedFramesRoundTrip :
    1 < (encodeFrame []).length ∧ 7 < 8 ∧ 0 < (encodeFrame [0x01]).length := by decide

theorem witness_EncodedFrameLayout :
    (⟨0x00, 0x06, List.replicate 252 0xFF⟩ : Message).data.length ≤ Config.maxEncodedData := by
  change (List.replicate 252 (0xFF : Byte)).length ≤ 252
  rw [List.length_replicate]

theorem witness_InitForgetsEarlierBytes :
    (sample (some 0x2140) []).unmarked ∧ State.powerUp.unmarked ∧
      definedStream [.nop, .init, .update 0xFF] = true := by decide

theorem witness_WithoutInitTheOldValueCounts :
    (sample (some 0x2140) []).unmarked ∧ (sample (some 0x2140) []).crc = some 0x2140 := by decide

theorem witness_TwoUpdatesReachEveryValue : (sample (some 0x0000) []).crc = some 0x0000 := by decide

theorem witness_OutputsShowTheRegister :
    (sample (some 0xFFFF) []).crc = some 0xFFFF ∧ State.powerUp.crc = none := by decide

theorem witness_ObservationHasNoSideEffect : refusedSample.crc ≠ none ∧ State.powerUp.crc = none := by
  decide

theorem witness_ReadUnsetStopsTheInstance :
    (sample none [⟨false, 0x2FF⟩]).unmarked ∧ (sample none [⟨false, 0x2FF⟩]).crc = none ∧
      (sample none [⟨false, 0x2FF⟩]).nextPair = ⟨false, commandWord 0b10#2 0xFF⟩ := by decide

theorem witness_ResetAndPowerUpValues :
    stepPair ⟨true, 0x3FF⟩ State.powerUp = .next State.reset ∧
      exec .init refusedSample = .next { refusedSample with crc := some 0xFFFF } := ⟨rfl, rfl⟩

theorem witness_PathsShareNoState :
    System.stepOf ⟨sample none [⟨false, 0x100⟩], sample none [⟨false, 0x000⟩]⟩ .encoding =
        .next (sample (some 0xFFFF) []) ∧
      System.stepOf ⟨sample none [⟨false, 0x100⟩], sample none [⟨false, 0x000⟩]⟩ .decoding =
        .next (sample none []) ∧
      Path.decoding ≠ Path.encoding := ⟨rfl, rfl, by decide⟩

theorem witness_InstancesTakePairsAtTheirOwnPorts :
    Path.encoding ≠ Path.decoding ∧ (System.at ⟨State.reset, State.reset⟩ .encoding).unmarked ∧
      (System.at ⟨State.reset, State.reset⟩ .decoding).inputs = [] ∧
      (System.at ⟨sample none [⟨true, 0x3FF⟩], State.reset⟩ .encoding).inputs = [⟨true, 0x3FF⟩] := by
  decide

/-- R82: from two instances alike with no pair listed, each takes the free pair of its own port. -/
theorem test_free_pairs_of_two_ports :
    (System.at ⟨State.reset, State.reset⟩ .encoding).nextPairOn Path.encoding.port =
        ⟨Config.freeRst 1 0, Config.freeCmd 1 0⟩ ∧
      (System.at ⟨State.reset, State.reset⟩ .decoding).nextPairOn Path.decoding.port =
        ⟨Config.freeRst 2 0, Config.freeCmd 2 0⟩ := ⟨rfl, rfl⟩

/-- R82: the encoder faults (V6), its mark is recorded, and the decoder goes on (V1). -/
theorem test_stop_of_one_instance :
    System.stateAfterAt ⟨sample none [⟨false, 0x201⟩], sample none [⟨false, 0x100⟩]⟩ .encoding =
        ⟨{ sample none [] with faultMark := some .readUnset }, sample none [⟨false, 0x100⟩]⟩ ∧
      System.stepAt ⟨{ sample none [] with faultMark := some .readUnset },
          sample none [⟨false, 0x100⟩]⟩ .decoding =
        .next ⟨{ sample none [] with faultMark := some .readUnset }, sample (some 0xFFFF) []⟩ :=
  ⟨rfl, rfl⟩

end Sys2Proof.Tests
end

/-! SUPPORT. The CRC function as a linear bijection of the register (40_crc_commands.md R56, R57). -/

namespace Sys2Proof.Machine

/-- One iteration of the loop is linear over GF(2). -/
theorem shiftStep_xor (a b : Word16) : shiftStep (a ^^^ b) = shiftStep a ^^^ shiftStep b := by
  unfold shiftStep
  rw [BitVec.getLsbD_xor, BitVec.ushiftRight_xor_distrib]
  cases a.getLsbD 0 <;> cases b.getLsbD 0
  case false.false => simp
  case false.true => simp; ac_rfl
  case true.false => simp; ac_rfl
  case true.true =>
    calc a >>> 1 ^^^ b >>> 1
        = a >>> 1 ^^^ b >>> 1 ^^^ (Config.polynomial ^^^ Config.polynomial) := by simp
      _ = (a >>> 1 ^^^ Config.polynomial) ^^^ (b >>> 1 ^^^ Config.polynomial) := by ac_rfl

/-- No word but 0 is shifted to 0: the constant sets bit 15, which the shift has cleared. -/
theorem eq_zero_of_shiftStep_eq_zero {t : Word16} (h : shiftStep t = 0) : t = 0 := by
  unfold shiftStep at h
  split at h
  case isTrue hbit =>
    have htop := congrArg (·.getLsbD 15) h
    simp [Config.polynomial] at htop
  case isFalse hbit =>
    ext i hi
    cases i with
    | zero => simpa using hbit
    | succ i => simpa [Nat.add_comm 1, hi] using congrArg (·.getLsbD i) h

theorem shiftStep_injective : Function.Injective shiftStep := by
  intro a b hab
  have hxor : shiftStep (a ^^^ b) = 0 := by rw [shiftStep_xor, hab]; simp
  exact BitVec.xor_eq_zero_iff.mp (eq_zero_of_shiftStep_eq_zero hxor)

theorem shiftSteps_xor (n : Nat) (a b : Word16) :
    shiftSteps n (a ^^^ b) = shiftSteps n a ^^^ shiftSteps n b := by
  induction n generalizing a b with
  | zero => rfl
  | succ n ih => rw [shiftSteps_succ, shiftStep_xor, ih, ← shiftSteps_succ, ← shiftSteps_succ]

theorem shiftSteps_bijective (n : Nat) : Function.Bijective (shiftSteps n) := by
  induction n with
  | zero => exact Function.bijective_id
  | succ n ih => exact ih.comp (Finite.injective_iff_bijective.mp shiftStep_injective)

/-- A word whose bit 0 is clear is shifted without feedback. -/
theorem shiftStep_shiftLeft_one {v : Word16} (h : v.getLsbD 15 = false) :
    shiftStep (v <<< 1) = v := by
  apply BitVec.eq_of_getLsbD_eq
  intro i hi
  obtain hlt | rfl : i < 15 ∨ i = 15 := by omega
  · have hlt' : i + 1 < 16 := by omega
    simp [shiftStep, Nat.add_comm 1, hlt', BitVec.getLsbD_eq_getElem hi]
  · simpa [shiftStep] using h

/-- A byte that stands above `n` clear bits reaches the bottom in `n` iterations. -/
theorem shiftSteps_zext16_shiftLeft (b : Byte) {n : Nat} (hn : n ≤ 8) :
    shiftSteps n (zext16 b <<< n) = zext16 b := by
  induction n with
  | zero => simp
  | succ n ih =>
    have htop : (zext16 b <<< n).getLsbD 15 = false := by
      have hge : ¬ 15 - n < 8 := by omega
      simp [zext16, BitVec.getLsbD_of_ge b (15 - n) (by omega)]
    rw [shiftSteps_succ, BitVec.shiftLeft_add, shiftStep_shiftLeft_one htop, ih (by omega)]

theorem joinBytes_eq_xor (hi lo : Byte) : joinBytes hi lo = zext16 lo ^^^ (zext16 hi <<< 8) := by
  apply BitVec.eq_of_getLsbD_eq
  intro i hi'
  unfold joinBytes zext16
  rw [BitVec.getLsbD_append]
  by_cases h : i < 8
  · simp [h, hi']
  · simp [h, hi', BitVec.getLsbD_of_ge lo i (by omega)]

/-- Two updates are sixteen iterations on the register against both bytes, the first byte low
(40_crc_commands.md R49, R59). -/
theorem upd_upd (c : Word16) (lo hi : Byte) :
    upd (upd c lo) hi = shiftSteps 16 (c ^^^ joinBytes hi lo) := by
  calc upd (upd c lo) hi
      = shiftSteps 8 (shiftSteps 8 (c ^^^ zext16 lo) ^^^ shiftSteps 8 (zext16 hi <<< 8)) := by
        rw [shiftSteps_zext16_shiftLeft hi le_rfl, upd, upd]
    _ = shiftSteps 8 (shiftSteps 8 (c ^^^ joinBytes hi lo)) := by
        rw [← shiftSteps_xor, joinBytes_eq_xor, BitVec.xor_assoc]
    _ = shiftSteps 16 (c ^^^ joinBytes hi lo) := (shiftSteps_add 8 8 _).symm

/-- From any register value two bytes reach any other (40_crc_commands.md R59). -/
theorem exists_upd_upd_eq (c v : Word16) : ∃ lo hi : Byte, upd (upd c lo) hi = v := by
  obtain ⟨w, hw⟩ := (shiftSteps_bijective 16).surjective v
  refine ⟨lowByte (c ^^^ w), highByte (c ^^^ w), ?_⟩
  rw [upd_upd, joinBytes_own, ← BitVec.xor_assoc, BitVec.xor_self, BitVec.zero_xor, hw]

@[simp] theorem crc16_nil : crc16 [] = Config.initialValue := rfl

theorem crc16_append_singleton (m : List Byte) (b : Byte) :
    crc16 (m ++ [b]) = upd (crc16 m) b :=
  crcFrom_append Config.initialValue m [b]

end Sys2Proof.Machine

/-! SUPPORT. The decoder by the four values of the op field (30_encoding.md R44), and the bytes fed
after one pair more. -/

namespace Sys2Proof

theorem commandWord_fields (w : CmdWord) : commandWord (opField w) (dataField w) = w := by
  apply BitVec.eq_of_getLsbD_eq
  intro i hi
  unfold commandWord opField dataField
  rw [BitVec.getLsbD_append, BitVec.getLsbD_extractLsb', BitVec.getLsbD_extractLsb']
  by_cases h : i < 8
  · simp [h]
  · have hlt : i - 8 < 2 := by omega
    have hsub : 8 + (i - 8) = i := by omega
    simp [h, hlt, hsub]

theorem opField_cases (w : CmdWord) :
    opField w = 0b00#2 ∨ opField w = 0b01#2 ∨ opField w = 0b10#2 ∨ opField w = 0b11#2 := by
  generalize opField w = op
  revert op
  decide

/-- Decoding goes by the op field, and the word is the one of its fields (30_encoding.md R44). -/
theorem decode_cases (w : CmdWord) :
    (opField w = 0b00#2 ∧ decode w = .nop) ∨ (opField w = 0b01#2 ∧ decode w = .init) ∨
      (opField w = 0b10#2 ∧ decode w = .update (dataField w)) ∨
      (opField w = 0b11#2 ∧ decode w = .reserved (dataField w)) := by
  obtain h | h | h | h := opField_cases w <;> simp [decode, h]

theorem decode_eq_init_iff {w : CmdWord} : decode w = .init ↔ opField w = 0b01#2 := by
  obtain ⟨ho, hd⟩ | ⟨ho, hd⟩ | ⟨ho, hd⟩ | ⟨ho, hd⟩ := decode_cases w <;> simp [ho, hd]

theorem decode_eq_update_iff {w : CmdWord} {b : Byte} :
    decode w = .update b ↔ opField w = 0b10#2 ∧ dataField w = b := by
  obtain ⟨ho, hd⟩ | ⟨ho, hd⟩ | ⟨ho, hd⟩ | ⟨ho, hd⟩ := decode_cases w <;> simp [ho, hd]

theorem decode_eq_reserved_iff {w : CmdWord} {d : Byte} :
    decode w = .reserved d ↔ opField w = 0b11#2 ∧ dataField w = d := by
  obtain ⟨ho, hd⟩ | ⟨ho, hd⟩ | ⟨ho, hd⟩ | ⟨ho, hd⟩ := decode_cases w <;> simp [ho, hd]

/-- A reserved word is the word its data field encodes to (30_encoding.md R42). -/
theorem encode_reserved_dataField {w : CmdWord} (h : opField w = 0b11#2) :
    encode (.reserved (dataField w)) = w := by
  rw [encode, ← h, commandWord_fields]

namespace Machine

theorem fedAfter_of_rst {p : PortPair} (m : List Byte) (h : p.rst = true) : fedAfter m p = [] := by
  simp [fedAfter, h]

theorem fedAfter_of_nop {p : PortPair} (m : List Byte) (h : p.rst = false)
    (hd : decode p.cmd = .nop) : fedAfter m p = m := by
  simp [fedAfter, h, hd]

theorem fedAfter_of_init {p : PortPair} (m : List Byte) (h : p.rst = false)
    (hd : decode p.cmd = .init) : fedAfter m p = [] := by
  simp [fedAfter, h, hd]

theorem fedAfter_of_update {p : PortPair} {b : Byte} (m : List Byte) (h : p.rst = false)
    (hd : decode p.cmd = .update b) : fedAfter m p = m ++ [b] := by
  simp [fedAfter, h, hd]

end Machine

end Sys2Proof

/-! SUPPORT. What a command, a step and the state it leaves can do (40_crc_commands.md R48 to R54). -/

namespace Sys2Proof.Machine

theorem exec_init (s : State) : exec .init s = .next (s.writeCrc Config.initialValue) := rfl

theorem exec_update_of_some {s : State} {c : Word16} (b : Byte) (h : s.crc = some c) :
    exec (.update b) s = .next (s.writeCrc (upd c b)) := by
  simp [exec, execUpdate, h]

theorem exec_update_of_none {s : State} (b : Byte) (h : s.crc = none) :
    exec (.update b) s = .fault (.readUnset (.command (encode (.update b)))) := by
  simp [exec, execUpdate, h]

@[simp] theorem stepPair_reset (w : CmdWord) (s : State) :
    stepPair ⟨true, w⟩ s = .next s.resetCrc := rfl

/-- The register is all that a completed command can write (10_state.md R16). -/
theorem exec_next_eq {i : Instr} {s t : State} (h : exec i s = .next t) :
    t = s ∨ ∃ v, t = s.writeCrc v := by
  obtain ⟨_, rfl⟩ | ⟨_, rfl⟩ | ⟨b, c, _, _, rfl⟩ := exec_next_cases h
  · exact .inl rfl
  · exact .inr ⟨_, rfl⟩
  · exact .inr ⟨_, rfl⟩

/-- A completed step takes its pair and writes the register at most (10_state.md R16, R23). -/
theorem step_next_eq {s t : State} (h : step s = .next t) :
    t = s.afterPair ∨ ∃ v, t = s.afterPair.writeCrc v := by
  obtain ⟨_, ⟨_, rfl⟩ | ⟨_, he⟩⟩ := step_next_cases h
  · exact .inr ⟨Config.initialValue, rfl⟩
  · exact exec_next_eq he

theorem step_next_marks {s t : State} (h : step s = .next t) :
    t.faultMark = s.faultMark ∧ t.refuseMark = s.refuseMark := by
  obtain rfl | ⟨v, rfl⟩ := step_next_eq h <;> simp

theorem step_next_pairs {s t : State} (h : step s = .next t) :
    t.inputs = s.afterPair.inputs ∧ t.drawn = s.afterPair.drawn := by
  obtain rfl | ⟨v, rfl⟩ := step_next_eq h <;> exact ⟨rfl, rfl⟩

/-- What it is to take one pair: the oldest listed, or a free one where none is (10_state.md R23). -/
theorem takes_one_pair {s t : State}
    (h : t.inputs = s.afterPair.inputs ∧ t.drawn = s.afterPair.drawn) :
    t.inputs = s.inputs.tail ∧ (s.inputs ≠ [] → t.drawn = s.drawn) ∧
      (s.inputs = [] → t.drawn = s.drawn + 1) := by
  obtain ⟨hi, hd⟩ := h
  exact ⟨hi.trans s.afterPair_inputs, fun hl => by simp [hd, hl], fun hl => by simp [hd, hl]⟩

theorem State.marked_eq_true_iff (s : State) : s.marked = true ↔ ¬ s.unmarked := by
  rw [← State.marked_eq_false_iff, Bool.not_eq_false]

/-- A fault of an unmarked state's step is the fault of the command its pair decodes to. -/
theorem step_fault_cases {s : State} {f : Fault} (hs : s.unmarked) (h : step s = .fault f) :
    s.nextPair.rst = false ∧ exec (decode s.nextPair.cmd) s.afterPair = .fault f := by
  rw [step_of_unmarked hs, stepPair] at h
  cases hr : s.nextPair.rst <;> simp_all

/-- A refused step is one of an unmarked state, and the refusal of the command its pair decodes
to. -/
theorem step_refused_cases {s : State} {r : Refusal} (h : step s = .refused r) :
    s.unmarked ∧ s.nextPair.rst = false ∧
      exec (decode s.nextPair.cmd) s.afterPair = .refused r := by
  have hs : s.unmarked := by
    by_contra hn
    simp [step_of_marked ((State.marked_eq_true_iff s).2 hn)] at h
  refine ⟨hs, ?_⟩
  rw [step_of_unmarked hs, stepPair] at h
  cases hr : s.nextPair.rst <;> simp_all

/-- A fault is recorded in `fault_mark` once the pair is taken (40_crc_commands.md R48). -/
theorem stateAfter_of_fault {s : State} {f : Fault} (hs : s.unmarked) (h : step s = .fault f) :
    stateAfter s = s.afterPair.markFault .readUnset := by
  obtain ⟨_, he⟩ := step_fault_cases hs h
  obtain ⟨b, _, _, rfl⟩ := exec_fault_cases he
  rw [stateAfter_of_unmarked hs, h]
  rfl

/-- A refusal is recorded in `refuse_mark` once the pair is taken (40_crc_commands.md R48, R54). -/
theorem stateAfter_of_refused {s : State} {r : Refusal} (h : step s = .refused r) :
    stateAfter s = s.afterPair.markRefusal .reservedOp := by
  obtain ⟨hs, _, he⟩ := step_refused_cases h
  obtain ⟨d, _, rfl⟩ := exec_refused_cases he
  rw [stateAfter_of_unmarked hs, h]
  rfl

/-- Whatever an unmarked state's step answers, the pair is taken (10_state.md R23). -/
theorem stateAfter_pairs {s : State} (hs : s.unmarked) :
    (stateAfter s).inputs = s.afterPair.inputs ∧ (stateAfter s).drawn = s.afterPair.drawn := by
  cases h : step s with
  | next t =>
    rw [stateAfter_of_unmarked hs, h]
    exact step_next_pairs h
  | fault f => simp [stateAfter_of_fault hs h]
  | refused r => simp [stateAfter_of_refused h]

/-- With a value in `crc` every command but the reserved op completes (40_crc_commands.md R51 to
R54). -/
theorem exec_next_or_reserved {s : State} (i : Instr) (h : s.crc.isSome) :
    (∃ t, exec i s = .next t) ∨
      ∃ d, i = .reserved d ∧ exec i s = .refused (.reservedOp (encode (.reserved d))) := by
  obtain ⟨c, hc⟩ := Option.isSome_iff_exists.mp h
  cases i with
  | nop => exact .inl ⟨s, rfl⟩
  | init => exact .inl ⟨_, rfl⟩
  | update b => exact .inl ⟨_, exec_update_of_some b hc⟩
  | reserved d => exact .inr ⟨d, rfl, rfl⟩

end Sys2Proof.Machine

/-! SUPPORT. The outputs by the register's value (41_outputs_and_frames.md R61 to R63), and the steps
of a system (60_exceptions.md R82). -/

namespace Sys2Proof.Machine

variable {s : State} {c : Word16}

theorem observeCrcQ_of_some (h : s.crc = some c) : observeCrcQ s = .ok c :=
  State.readCrc_of_some h _

theorem observeCrcLo_of_some (h : s.crc = some c) : observeCrcLo s = .ok (lowByte c) := by
  rw [observeCrcLo, State.readCrc_of_some h]; rfl

theorem observeCrcHi_of_some (h : s.crc = some c) : observeCrcHi s = .ok (highByte c) := by
  rw [observeCrcHi, State.readCrc_of_some h]; rfl

theorem observeMatch_of_some (lo hi : Byte) (h : s.crc = some c) :
    observeMatch lo hi s = .ok (decide (c = joinBytes hi lo)) := by
  rw [observeMatch, State.readCrc_of_some h]; rfl

theorem observeCrcQ_of_none (h : s.crc = none) :
    observeCrcQ s = .error (.readUnset (.output .crcQ)) :=
  State.readCrc_of_none h _

theorem observeCrcLo_of_none (h : s.crc = none) :
    observeCrcLo s = .error (.readUnset (.output .crcLo)) := by
  rw [observeCrcLo, State.readCrc_of_none h]; rfl

theorem observeCrcHi_of_none (h : s.crc = none) :
    observeCrcHi s = .error (.readUnset (.output .crcHi)) := by
  rw [observeCrcHi, State.readCrc_of_none h]; rfl

theorem observeMatch_of_none (lo hi : Byte) (h : s.crc = none) :
    observeMatch lo hi s = .error (.readUnset (.output .matchOut)) := by
  rw [observeMatch, State.readCrc_of_none h]; rfl

/-- A state that a reset or an INIT leaves is the state before with 0xFFFF in `crc`
(40_crc_commands.md R52; 70_reset_and_hazards.md R85). -/
theorem eq_writeCrc_of_reset_or_init {s t : State}
    (h : (∃ w : CmdWord, stepPair ⟨true, w⟩ s = .next t) ∨ exec .init s = .next t) :
    t = s.writeCrc 0xFFFF := by
  obtain ⟨w, h⟩ | h := h <;> exact (Host.Outcome.next.inj h).symm

variable {sys : System} {p q : Path} {t : State}

theorem System.stepAt_of_stepOf (h : sys.stepOf p = .next t) :
    sys.stepAt p = .next (sys.set p t) := by
  simp [System.stepAt, h]

/-- The step at one path does not see what stands at the other. -/
theorem System.stepOf_set_of_ne (u : State) (h : q ≠ p) :
    (sys.set p u).stepOf q = sys.stepOf q := by
  rw [System.stepOf, System.at_set_of_ne _ _ h, System.stepOf]

end Sys2Proof.Machine

/-! SUPPORT. The proofs of the statements about the state. -/

namespace Sys2Proof.Machine

/-- Settles O29: a completed step keeps the marks and leaves `crc` as it was or writes it, and with a
value in `crc` only the reserved op stops. -/
theorem readinessIsKeptByEveryStep : Obligations.ReadinessIsKeptByEveryStep := by
  unfold Obligations.ReadinessIsKeptByEveryStep
  constructor
  · rintro s t ⟨hs, hc⟩ h
    obtain rfl | ⟨v, rfl⟩ := step_next_eq h
    · exact ⟨by simpa [State.unmarked] using hs, by simpa using hc⟩
    · exact ⟨by simpa [State.unmarked] using hs, rfl⟩
  · rintro s ⟨hs, hc⟩
    rw [step_of_unmarked hs, stepPair]
    cases hr : s.nextPair.rst with
    | true => exact .inl ⟨_, rfl⟩
    | false =>
      have hc' : s.afterPair.crc.isSome := by simpa using hc
      obtain hn | ⟨d, hd, he⟩ := exec_next_or_reserved (decode s.nextPair.cmd) hc'
      · exact .inl hn
      · obtain ⟨ho, rfl⟩ := decode_eq_reserved_iff.mp hd
        rw [encode_reserved_dataField ho] at he
        exact .inr ⟨rfl, ho, he⟩

/-- Settles O31, by what a completed step is: a reset, or one of the three defined commands. -/
theorem registerIsCrcOfTheBytesFed : Obligations.RegisterIsCrcOfTheBytesFed := by
  unfold Obligations.RegisterIsCrcOfTheBytesFed
  intro s t m hm h
  obtain ⟨_, ⟨hr, rfl⟩ | ⟨hr, he⟩⟩ := step_next_cases h
  · rw [fedAfter_of_rst m hr]; rfl
  · obtain ⟨hd, rfl⟩ | ⟨hd, rfl⟩ | ⟨b, c, hd, hc, rfl⟩ := exec_next_cases he
    · rw [fedAfter_of_nop m hr hd]; exact s.afterPair_crc.trans hm
    · rw [fedAfter_of_init m hr hd]; rfl
    · obtain rfl : crc16 m = c := by simpa [hm] using hc
      rw [fedAfter_of_update m hr hd, State.holdsCrcOf, crc16_append_singleton]; rfl

/-- Settles O19, by the three commands that complete. -/
theorem commandFrame : Obligations.CommandFrame := by
  unfold Obligations.CommandFrame
  intro i s t h
  obtain ⟨rfl, rfl⟩ | ⟨rfl, rfl⟩ | ⟨b, c, rfl, _, rfl⟩ := exec_next_cases h <;> simp

/-- Settles O24: the state a stop leaves is the one after the pair with one mark more, and a completed
step keeps both marks. -/
theorem marksAreSetOnceAndStopTheMachine : Obligations.MarksAreSetOnceAndStopTheMachine := by
  unfold Obligations.MarksAreSetOnceAndStopTheMachine
  refine ⟨fun s f hs h => ?_, fun s r h => ?_, fun s hn => ?_, fun s t h => step_next_marks h⟩
  · rw [stateAfter_of_fault hs h]
    simp [hs.1]
  · obtain ⟨hs, _, _⟩ := step_refused_cases h
    rw [stateAfter_of_refused h]
    simp [hs.2]
  · have hm := (State.marked_eq_true_iff s).2 hn
    exact ⟨by simp [step_of_marked hm], stateAfter_of_marked hm⟩

/-- Settles O27: a completed step and the state any step leaves stand where taking the pair does. -/
theorem eachStepTakesOnePair : Obligations.EachStepTakesOnePair := by
  unfold Obligations.EachStepTakesOnePair
  exact ⟨fun s t h => takes_one_pair (step_next_pairs h),
    fun s hs => takes_one_pair (stateAfter_pairs hs)⟩

/-- Settles O28: of the steps that complete, only NOP's leaves `crc` out. -/
theorem onlyInitUpdateAndResetWriteTheRegister :
    Obligations.OnlyInitUpdateAndResetWriteTheRegister := by
  unfold Obligations.OnlyInitUpdateAndResetWriteTheRegister
  intro s t h hne
  obtain ⟨_, ⟨hr, _⟩ | ⟨_, he⟩⟩ := step_next_cases h
  · exact .inl hr
  · obtain ⟨_, rfl⟩ | ⟨hd, _⟩ | ⟨b, c, hd, _, _⟩ := exec_next_cases he
    · exact absurd s.afterPair_crc hne
    · exact .inr (.inl (decode_eq_init_iff.mp hd))
    · exact .inr (.inr (decode_eq_update_iff.mp hd).1)

/-- Settles O40, by the bytes that sixteen iterations of the loop need. -/
theorem twoUpdatesReachEveryValue : Obligations.TwoUpdatesReachEveryValue := by
  unfold Obligations.TwoUpdatesReachEveryValue
  intro s c v hc
  obtain ⟨lo, hi, h⟩ := exists_upd_upd_eq c v
  exact ⟨lo, hi, _, _, exec_update_of_some lo hc, exec_update_of_some hi rfl, congrArg some h⟩

/-- Settles O46: replacing the state at one path is not seen at the other. -/
theorem pathsShareNoState : Obligations.PathsShareNoState := by
  unfold Obligations.PathsShareNoState
  refine ⟨fun sys p t h => ?_, fun sys a b ha hb => ?_, fun sys p q hq => ?_⟩
  · exact ⟨System.stepAt_of_stepOf h, System.at_set_self .., fun q hq =>
      System.at_set_of_ne _ _ hq⟩
  · have hb' : (sys.set .encoding a).stepOf .decoding = .next b :=
      (System.stepOf_set_of_ne a (by decide)).trans hb
    have ha' : (sys.set .decoding b).stepOf .encoding = .next a :=
      (System.stepOf_set_of_ne b (by decide)).trans ha
    exact ⟨_, _, System.stepAt_of_stepOf ha, System.stepAt_of_stepOf hb,
      System.stepAt_of_stepOf hb', System.stepAt_of_stepOf ha'⟩
  · exact ⟨System.at_set_self .., System.at_set_of_ne _ _ hq, fun t h =>
      System.stepAt_of_stepOf ((System.stepOf_set_of_ne _ hq).trans h)⟩

/-- Settles O20, by the step of an unmarked state and the two cases of taking a pair. -/
theorem stepRunsTheDecodedCommand : Obligations.StepRunsTheDecodedCommand := by
  unfold Obligations.StepRunsTheDecodedCommand
  refine ⟨fun s w hs hp => ?_, fun s p rest h => ?_, fun s h => ?_⟩
  · rw [step_of_unmarked hs, hp]; rfl
  · exact ⟨State.nextPair_of_cons h, State.afterPair_of_cons h⟩
  · exact ⟨State.nextPairOn_of_nil _ h, by simp [State.afterPair, h]⟩

/-- Settles O30, by the values of `State.reset` and the empty fold. -/
theorem resetStateIsReady : Obligations.ResetStateIsReady :=
  ⟨⟨⟨rfl, rfl⟩, rfl⟩, congrArg some crc16_nil.symm⟩

/-- Settles O44: at power-up `crc` is unset, and a reset and an INIT write 0xFFFF and no mark. -/
theorem resetAndPowerUpValues : Obligations.ResetAndPowerUpValues := by
  unfold Obligations.ResetAndPowerUpValues
  refine ⟨⟨rfl, rfl, rfl, observeCrcQ_of_none rfl, observeCrcLo_of_none rfl,
    observeCrcHi_of_none rfl, fun lo hi => observeMatch_of_none lo hi rfl⟩, ⟨rfl, rfl⟩, ?_, ?_⟩
  · intro t ht
    have hc : t.crc = some 0xFFFF := by
      obtain rfl | ⟨s, hs⟩ | ⟨s, hs⟩ := ht
      · rfl
      · rw [eq_writeCrc_of_reset_or_init (.inl hs)]; rfl
      · rw [eq_writeCrc_of_reset_or_init (.inr hs)]; rfl
    refine ⟨hc, observeCrcQ_of_some hc, observeCrcLo_of_some hc, observeCrcHi_of_some hc, ?_⟩
    intro lo hi
    rw [observeMatch_of_some lo hi hc]
    simp only [eq_comm]
  · intro s t h
    rw [eq_writeCrc_of_reset_or_init h]
    exact ⟨rfl, rfl⟩

/-- Settles O45: UPDATE reads the register that power loss has unset, INIT does not. -/
theorem powerLossUnsetsTheRegister : Obligations.PowerLossUnsetsTheRegister := by
  unfold Obligations.PowerLossUnsetsTheRegister
  intro s
  exact ⟨rfl, fun b => exec_update_of_none b rfl, _, exec_init _, rfl⟩

/-- Settles O47: the ports differ, an unmarked state's step is what its pair does, and the port
plays no part where a pair is listed. -/
theorem instancesTakePairsAtTheirOwnPorts : Obligations.InstancesTakePairsAtTheirOwnPorts := by
  unfold Obligations.InstancesTakePairsAtTheirOwnPorts
  refine ⟨fun p q => Path.port_injective.ne, fun sys p hs => takeStepOn_of_unmarked _ hs,
    fun sys p x rest h => ⟨State.nextPairOn_of_cons _ h, takeStepOn_of_listed _ ?_⟩,
    fun sys p h => State.nextPairOn_of_nil _ h⟩
  simp [h]

end Sys2Proof.Machine

/-! SUPPORT. The bit-serial form of Upd (20_memory.md R34), the length of a frame
(41_outputs_and_frames.md R66), and the state an observation leaves (41_outputs_and_frames.md R64). -/

namespace Sys2Proof.Machine

/-- One iteration of the loop on the register against data is one bit fed: data bit 0 joins the
feedback, and the data above it waits one place lower. -/
theorem shiftStep_xor_eq_feedBit (t v : Word16) :
    shiftStep (t ^^^ v) = feedBit t (v.getLsbD 0) ^^^ (v >>> 1) := by
  unfold shiftStep feedBit
  rw [BitVec.getLsbD_xor, BitVec.ushiftRight_xor_distrib]
  cases t.getLsbD 0 ^^ v.getLsbD 0
  case false => rfl
  case true => simp; ac_rfl

/-- After `n` iterations the lowest `n` data bits have been fed, bit 0 first, and the others wait. -/
theorem shiftSteps_xor_eq_foldl_feedBit (n : Nat) (t v : Word16) :
    shiftSteps n (t ^^^ v) = ((List.range n).map v.getLsbD).foldl feedBit t ^^^ (v >>> n) := by
  induction n with
  | zero => simp
  | succ n ih =>
    have hbit : (v >>> n).getLsbD 0 = v.getLsbD n := by simp
    rw [shiftSteps_add n 1, ih, shiftSteps_succ, shiftSteps_zero, shiftStep_xor_eq_feedBit, hbit,
      ← BitVec.shiftRight_add, List.range_succ, List.map_append, List.foldl_append]
    rfl

theorem zext16_shiftRight_eight (b : Byte) : zext16 b >>> 8 = 0#16 := by
  apply BitVec.eq_of_getLsbD_eq
  intro i _
  simp [zext16]

theorem zext16_getLsbD (b : Byte) {i : Nat} (hi : i < 16) :
    (zext16 b).getLsbD i = b.getLsbD i := by
  simp [zext16, hi]

@[simp] theorem encodeFrame_length (m : List Byte) : (encodeFrame m).length = m.length + 2 :=
  List.length_append

@[simp] theorem Message.covered_length (msg : Message) :
    msg.covered.length = msg.data.length + 2 := rfl

/-- A mark that stands keeps its reason (10_state.md R25), and as there is only one reason
(60_exceptions.md R74) it is the reason of the new fault. -/
theorem State.markFault_eq (s : State) (r : FaultReason) :
    s.markFault r = { s with faultMark := some r } := by
  cases r
  unfold State.markFault
  cases h : s.faultMark with
  | none => rfl
  | some q => cases q; rfl

theorem stateAfterObserving_of_some {s : State} {c : Word16} (o : Output) (h : s.crc = some c) :
    stateAfterObserving o s = s := by
  simp [stateAfterObserving, h]

theorem stateAfterObserving_of_none {s : State} (o : Output) (h : s.crc = none) :
    stateAfterObserving o s = s.markFault .readUnset := by
  rw [stateAfterObserving, State.readCrc_of_none h]
  rfl

end Sys2Proof.Machine

/-! SUPPORT. The proofs of the statements about memory and byte order. -/

namespace Sys2Proof.Machine

/-- Settles O8: eight iterations feed the byte's eight bits, bit 0 first, and leave no data above. -/
theorem updTakesBitZeroFirst : Obligations.UpdTakesBitZeroFirst := by
  unfold Obligations.UpdTakesBitZeroFirst
  intro c b
  have hbits : (List.range 8).map (zext16 b).getLsbD = (List.range 8).map b.getLsbD :=
    List.map_congr_left fun i hi => zext16_getLsbD b ((List.mem_range.mp hi).trans (by decide))
  calc upd c b
      = ((List.range 8).map (zext16 b).getLsbD).foldl feedBit c ^^^ (zext16 b >>> 8) :=
        shiftSteps_xor_eq_foldl_feedBit 8 c (zext16 b)
    _ = ((List.range 8).map b.getLsbD).foldl feedBit c := by
        rw [hbits, zext16_shiftRight_eight, BitVec.xor_zero]
    _ = updBitSerial c b := rfl

/-- Settles O25: a fault and a refusal record a mark beside the `crc` that taking the pair kept, and a
marked state stays as it is. -/
theorem stoppedStepLeavesTheRegister : Obligations.StoppedStepLeavesTheRegister := by
  unfold Obligations.StoppedStepLeavesTheRegister
  intro s hstop
  cases h : step s with
  | next t => exact absurd h (hstop t)
  | fault f =>
    by_cases hs : s.unmarked
    · simp [stateAfter_of_fault hs h]
    · rw [stateAfter_of_marked ((State.marked_eq_true_iff s).2 hs)]
  | refused r => simp [stateAfter_of_refused h]

/-- Settles O36: the layout is the definition of the encoded frame, and its length is that of the
covered bytes and the two trailer bytes. -/
theorem encodedFrameLayout : Obligations.EncodedFrameLayout := by
  unfold Obligations.EncodedFrameLayout
  refine ⟨fun msg => rfl, fun msg hlen => ?_⟩
  have hframe : (encodeFrame msg.covered).length = msg.data.length + 4 := by simp
  rw [hframe]
  exact ⟨rfl, Nat.le_add_left 4 _, Nat.add_le_add_right hlen 4⟩

/-- Settles O42, by whether `crc` holds a value. -/
theorem observationHasNoSideEffect : Obligations.ObservationHasNoSideEffect := by
  unfold Obligations.ObservationHasNoSideEffect
  intro o s
  constructor
  · intro h
    obtain ⟨c, hc⟩ := Option.ne_none_iff_exists'.mp h
    exact stateAfterObserving_of_some o hc
  · intro h
    rw [stateAfterObserving_of_none o h, State.markFault_eq]

end Sys2Proof.Machine

/-! SUPPORT. The decoder on the word of two fields, the two round trips of decoder and encoder, and
the opcode table's match (30_encoding.md R40, R43 to R45). -/

namespace Sys2Proof

/-- The decoder on a word written by its fields (30_encoding.md R44). -/
theorem decode_commandWord (op : BitVec 2) (d : Byte) : decode (commandWord op d) =
    if op = 0b00#2 then .nop
    else if op = 0b01#2 then .init
    else if op = 0b10#2 then .update d
    else .reserved d := by
  rw [decode, opField_commandWord, dataField_commandWord]

@[simp] theorem decode_encode (i : Instr) : decode (encode i) = i := by
  cases i with
  | nop => exact decode_commandWord 0b00#2 0x00#8
  | init => exact decode_commandWord 0b01#2 0x00#8
  | update b => exact decode_commandWord 0b10#2 b
  | reserved d => exact decode_commandWord 0b11#2 d

theorem canonicalWord_eq_self {w : CmdWord} (h0 : opField w ≠ 0b00#2) (h1 : opField w ≠ 0b01#2) :
    canonicalWord w = w :=
  if_neg (not_or.mpr ⟨h0, h1⟩)

/-- Encoding what was decoded clears the ignored data field and nothing else
(30_encoding.md R43). -/
theorem encode_decode (w : CmdWord) : encode (decode w) = canonicalWord w := by
  obtain ⟨ho, hd⟩ | ⟨ho, hd⟩ | ⟨ho, hd⟩ | ⟨ho, hd⟩ := decode_cases w
  · rw [hd, canonicalWord, ho]; rfl
  · rw [hd, canonicalWord, ho]; rfl
  · rw [hd, canonicalWord_eq_self (by simp [ho]) (by simp [ho]), encode, ← ho, commandWord_fields]
  · rw [hd, canonicalWord_eq_self (by simp [ho]) (by simp [ho]), encode_reserved_dataField ho]

theorem isDefined_decode_of_reserved {w : CmdWord} (h : opField w = 0b11#2) :
    (decode w).isDefined = false := by
  rw [decode_eq_reserved_iff.mpr ⟨h, rfl⟩]; rfl

theorem Instr.row_mem_opcodeTable (i : Instr) : i.row ∈ opcodeTable := by
  cases i with
  | nop => exact Laws.EncodesInRow.nop.1
  | init => exact Laws.EncodesInRow.init.1
  | update b => exact (Laws.EncodesInRow.update b).1
  | reserved d => exact (Laws.EncodesInRow.reserved d).1

/-- Every row's mask keeps the op field and drops the data field (30_encoding.md R40). -/
theorem mask_of_mem_opcodeTable {r : OpcodeRow} (h : r ∈ opcodeTable) : r.mask = 0x300 := by
  revert r
  decide

theorem and_opMask (w : CmdWord) : w &&& 0x300 = commandWord (opField w) 0x00#8 := by
  have hop : opField w &&& 0b11#2 = opField w := BitVec.and_allOnes
  calc w &&& 0x300 = (opField w ++ dataField w) &&& (0b11#2 ++ 0x00#8) :=
        congrArg (· &&& 0x300) (commandWord_fields w).symm
    _ = commandWord (opField w) 0x00#8 := by
        rw [BitVec.and_append, hop, BitVec.and_zero]; rfl

/-- The match value of a word's row is the op value with a cleared data field. -/
theorem bits_row_decode (w : CmdWord) :
    (decode w).row.bits = commandWord (opField w) 0x00#8 := by
  obtain ⟨ho, hd⟩ | ⟨ho, hd⟩ | ⟨ho, hd⟩ | ⟨ho, hd⟩ := decode_cases w <;> rw [ho, hd] <;> rfl

/-- No two rows of the table have one match value (30_encoding.md R40). -/
theorem eq_of_bits_eq {r q : OpcodeRow} (hr : r ∈ opcodeTable) (hq : q ∈ opcodeTable)
    (h : r.bits = q.bits) : r = q :=
  List.inj_on_of_nodup_map (f := OpcodeRow.bits) (by decide) hr hq h

/-- A word matches the row of its command and no other (30_encoding.md R40). -/
theorem and_mask_eq_bits_iff {r : OpcodeRow} (hr : r ∈ opcodeTable) (w : CmdWord) :
    w &&& r.mask = r.bits ↔ r = (decode w).row := by
  rw [mask_of_mem_opcodeTable hr, and_opMask, ← bits_row_decode]
  constructor
  · exact fun h => eq_of_bits_eq hr (decode w).row_mem_opcodeTable h.symm
  · rintro rfl; rfl

end Sys2Proof

/-! SUPPORT. A command at the head of the pairs, and CRC's commands run to their end
(30_encoding.md R46; 40_crc_commands.md R48, R52, R53). -/

namespace Sys2Proof.Machine

/-- A command word issued ahead of every other pair is the next step's (40_crc_commands.md R48). -/
theorem step_issueFirst_commandPair {s : State} (hs : s.unmarked) (w : CmdWord) :
    step (s.issueFirst (commandPair w)) = exec (decode w) s :=
  step_of_unmarked (s := s.issueFirst (commandPair w)) hs

/-- A reserved word is refused, whatever `crc` holds (40_crc_commands.md R54). -/
theorem step_of_reserved {s : State} (hs : s.unmarked) (hr : s.nextPair.rst = false)
    (ho : opField s.nextPair.cmd = 0b11#2) : step s = .refused (.reservedOp s.nextPair.cmd) := by
  calc step s = exec (decode s.nextPair.cmd) s.afterPair := by
        simp [step_of_unmarked hs, stepPair, hr]
    _ = .refused (.reservedOp (encode (.reserved (dataField s.nextPair.cmd)))) := by
        rw [decode_eq_reserved_iff.mpr ⟨ho, rfl⟩]; rfl
    _ = .refused (.reservedOp s.nextPair.cmd) := by rw [encode_reserved_dataField ho]

/-- The run of a command that completes goes on from its next state. -/
theorem run_issueFirst {s t : State} {i : Instr} (k : Nat) (hs : s.unmarked)
    (he : exec i s = .next t) :
    core.run (k + 1) (s.issueFirst (commandPair (encode i))) = core.run k t := by
  refine run_of_step k ?_
  rw [step_issueFirst_commandPair hs, decode_encode, he]

/-- The UPDATEs of a byte list fold it into the register (40_crc_commands.md R50, R53). -/
theorem run_feedCommands (bs : List Byte) {s : State} {c : Word16} (rest : List PortPair)
    (hs : s.unmarked) (hc : s.crc = some c) :
    core.run bs.length { s with inputs := commandPairs (feedCommands bs) ++ rest } =
      .next { s with crc := some (crcFrom c bs), inputs := rest } := by
  induction bs generalizing s c with
  | nil => rw [crcFrom_nil, ← hc]; rfl
  | cons b bs ih =>
    have hrun := run_issueFirst (s := { s with inputs := commandPairs (feedCommands bs) ++ rest })
      bs.length hs (exec_update_of_some b hc)
    exact hrun.trans (ih (s := s.writeCrc (upd c b)) hs rfl)

/-- CRC's commands complete from any unmarked state, ⊥ included (30_encoding.md R46). -/
theorem run_crcCommands (bs : List Byte) {s : State} (rest : List PortPair) (hs : s.unmarked) :
    core.run (crcCommands bs).length { s with inputs := commandPairs (crcCommands bs) ++ rest } =
      .next { s with crc := some (crc16 bs), inputs := rest } := by
  have hlen : (crcCommands bs).length = bs.length + 1 := by simp [crcCommands, feedCommands]
  have hrun := run_issueFirst (s := { s with inputs := commandPairs (feedCommands bs) ++ rest })
    bs.length hs (exec_init _)
  rw [hlen]
  exact hrun.trans (run_feedCommands bs (s := s.writeCrc Config.initialValue) rest hs rfl)

theorem isByteLiteral_toNat (b : Byte) : isByteLiteral b.toNat = true :=
  decide_eq_true (Nat.le_of_lt_succ b.isLt)

theorem all_isByteLiteral_toNat (bs : List Byte) :
    (bs.map BitVec.toNat).all isByteLiteral = true := by
  simp [isByteLiteral_toNat]

theorem map_ofNat_map_toNat (bs : List Byte) :
    (bs.map BitVec.toNat).map (BitVec.ofNat 8) = bs := by
  simp [Function.comp_def]

/-- The expansion of CRC (30_encoding.md R46). -/
theorem expand_crc (bs : List Byte) :
    expand (.crc (bs.map BitVec.toNat)) = some (crcCommands bs) := by
  simp only [expand, AsmLine.wellFormed, all_isByteLiteral_toNat, map_ofNat_map_toNat, if_true]

/-- The expansion of FEED, which has an operand at least (30_encoding.md R46). -/
theorem expand_feed {bs : List Byte} (h : bs ≠ []) :
    expand (.feed (bs.map BitVec.toNat)) = some (feedCommands bs) := by
  have hne : (bs.map BitVec.toNat).isEmpty = false := by simp [h]
  simp only [expand, AsmLine.wellFormed, hne, all_isByteLiteral_toNat, map_ofNat_map_toNat,
    Bool.not_false, Bool.and_self, if_true]

/-- The command of UPDATE with a byte literal (30_encoding.md R45). -/
theorem expand_update (b : Byte) : expand (.update b.toNat) = some [.update b] := by
  simp [expand, AsmLine.wellFormed, isByteLiteral_toNat]

end Sys2Proof.Machine

/-! SUPPORT. Assembly text (30_encoding.md R43, R45): lines, blanks, the digits of a byte, and the
line the disassembler prints for each command. -/

namespace Sys2Proof.Machine

theorem splitAtChar_ne_nil (sep : Char) (t : List Char) : splitAtChar sep t ≠ [] := by
  cases t with
  | nil => simp [splitAtChar]
  | cons c cs =>
    unfold splitAtChar
    split
    · simp
    · split <;> simp

theorem splitAtChar_cons_self (sep : Char) (t : List Char) :
    splitAtChar sep (sep :: t) = [] :: splitAtChar sep t := by
  obtain ⟨w, ws, h⟩ := List.exists_cons_of_ne_nil (splitAtChar_ne_nil sep t)
  simp [splitAtChar, h]

theorem splitAtChar_cons_of_ne {sep c : Char} {t w : List Char} {ws : List (List Char)}
    (hc : c ≠ sep) (h : splitAtChar sep t = w :: ws) :
    splitAtChar sep (c :: t) = (c :: w) :: ws := by
  simp [splitAtChar, h, hc]

/-- Characters before the first separator belong to the first piece. -/
theorem splitAtChar_append {sep : Char} {l t w : List Char} {ws : List (List Char)} (h : sep ∉ l)
    (ht : splitAtChar sep t = w :: ws) : splitAtChar sep (l ++ t) = (l ++ w) :: ws := by
  induction l with
  | nil => exact ht
  | cons c l ih =>
    exact splitAtChar_cons_of_ne (List.ne_of_not_mem_cons h).symm
      (ih (List.not_mem_of_not_mem_cons h))

theorem splitAtChar_append_sep {sep : Char} {l : List Char} (t : List Char) (h : sep ∉ l) :
    splitAtChar sep (l ++ sep :: t) = l :: splitAtChar sep t := by
  rw [splitAtChar_append h (splitAtChar_cons_self sep t), List.append_nil]

theorem splitAtChar_of_not_mem {sep : Char} {l : List Char} (h : sep ∉ l) :
    splitAtChar sep l = [l] := by
  simpa using splitAtChar_append h (t := []) rfl

/-- A program text is its first line and the text after the line break (30_encoding.md R45). -/
theorem assemble_line_append {l : List Char} (t : List Char) (h : '\n' ∉ l) :
    assemble (l ++ '\n' :: t) =
      (assembleLine l).bind fun is => (assemble t).map fun rest => is ++ rest := by
  rw [assemble, splitAtChar_append_sep t h, List.foldr_cons, ← assemble]
  cases assembleLine l with
  | none => rfl
  | some is => cases assemble t <;> rfl

theorem trimBlanks_blank_cons {c : Char} (t : List Char) (h : isBlank c = true) :
    trimBlanks (c :: t) = trimBlanks t := by
  simp [trimBlanks, h]

/-- A text whose first and last characters are no blanks keeps all of its characters. -/
theorem trimBlanks_eq_self {c d : Char} (t : List Char) (hc : isBlank c = false)
    (hd : isBlank d = false) : trimBlanks (c :: (t ++ [d])) = c :: (t ++ [d]) := by
  simp [trimBlanks, hc, hd]

theorem takeWhile_not_isBlank {m : List Char} (ops : List Char) (hm : ∀ c ∈ m, isBlank c = false) :
    (m ++ ' ' :: ops).takeWhile (fun c => !isBlank c) = m := by
  rw [List.takeWhile_append_of_pos (by simpa using hm)]
  simp [isBlank]

theorem dropWhile_not_isBlank {m : List Char} (ops : List Char) (hm : ∀ c ∈ m, isBlank c = false) :
    (m ++ ' ' :: ops).dropWhile (fun c => !isBlank c) = ' ' :: ops := by
  rw [List.dropWhile_append_of_pos (by simpa using hm)]
  simp [isBlank]

/-- A line without a comment: a mnemonic, a blank and its operands (30_encoding.md R45). -/
theorem assembleLine_of_parts {m ops : List Char} (hm : ∀ c ∈ m, isBlank c = false)
    (hs : ';' ∉ m ++ ' ' :: ops) (htrim : trimBlanks (m ++ ' ' :: ops) = m ++ ' ' :: ops) :
    assembleLine (m ++ ' ' :: ops) =
      (operandsText (' ' :: ops)).bind fun vs => (lineOf m vs).bind expand := by
  have hcode : (m ++ ' ' :: ops).takeWhile (· != ';') = m ++ ' ' :: ops :=
    List.takeWhile_eq_self_iff.mpr fun c hc => bne_iff_ne.mpr fun h => hs (h ▸ hc)
  have hne : (m ++ ' ' :: ops).isEmpty = false := by simp
  simp only [assembleLine, hcode, htrim, hne, takeWhile_not_isBlank ops hm,
    dropWhile_not_isBlank ops hm]
  cases operandsText (' ' :: ops) with
  | none => rfl
  | some vs => cases h : lineOf m vs <;> simp [h]

/-- A printed digit is read back as its value. -/
theorem digitValue_hexDigit {n : Nat} (h : n < 16) : digitValue 16 (hexDigit n) = some n := by
  revert n
  decide

theorem nibbles_lt (b : Byte) : b.toNat / 16 < 16 ∧ b.toNat % 16 < 16 :=
  ⟨Nat.div_lt_of_lt_mul b.isLt, Nat.mod_lt _ (by decide)⟩

theorem numberText_hexByte (b : Byte) : numberText 16 (hexByte b) = some b.toNat := by
  obtain ⟨hhi, hlo⟩ := nibbles_lt b
  simp [numberText, hexByte, digitsFrom, digitValue_hexDigit, hhi, hlo, Nat.div_add_mod']

/-- Only hexadecimal digits are printed for a byte. -/
theorem digitValue_of_mem_hexByte {c : Char} {b : Byte} (h : c ∈ hexByte b) :
    (digitValue 16 c).isSome := by
  obtain ⟨hhi, hlo⟩ := nibbles_lt b
  obtain rfl | rfl : c = _ ∨ c = _ := by simpa [hexByte] using h
  · simp [digitValue_hexDigit hhi]
  · simp [digitValue_hexDigit hlo]

theorem not_mem_hexByte {c : Char} (b : Byte) (h : digitValue 16 c = none) : c ∉ hexByte b :=
  fun hc => by simpa [h] using digitValue_of_mem_hexByte hc

theorem digitValue_of_isBlank {c : Char} (h : isBlank c = true) : digitValue 16 c = none := by
  simp only [isBlank, Bool.or_eq_true, beq_iff_eq] at h
  obtain (rfl | rfl) | rfl := h <;> rfl

theorem isBlank_of_mem_hexByte {c : Char} {b : Byte} (h : c ∈ hexByte b) : isBlank c = false :=
  Bool.eq_false_iff.mpr fun hb => not_mem_hexByte b (digitValue_of_isBlank hb) h

/-- The operand text that the disassembler prints for UPDATE is the literal of its byte. -/
theorem operandsText_hexByte (b : Byte) :
    operandsText (' ' :: '0' :: 'x' :: hexByte b) = some [b.toNat] := by
  have htrim : trimBlanks (' ' :: '0' :: 'x' :: hexByte b) = '0' :: 'x' :: hexByte b := by
    rw [trimBlanks_blank_cons _ rfl]
    exact trimBlanks_eq_self ['x', _] rfl (isBlank_of_mem_hexByte (b := b) (by simp [hexByte]))
  have hcomma : ',' ∉ ' ' :: '0' :: 'x' :: hexByte b := by
    simpa using not_mem_hexByte b (c := ',') rfl
  simp [operandsText, htrim, splitAtChar_of_not_mem hcomma, literalText, numberText_hexByte]

/-- A mnemonic before operands that end in a byte's digits, as the disassembler prints them. -/
theorem assembleLine_of_hexByte {c : Char} {m ops : List Char} (b : Byte)
    (hm : ∀ x ∈ c :: m, isBlank x = false) (hs : ';' ∉ c :: m ++ ' ' :: ops) :
    assembleLine (c :: m ++ ' ' :: (ops ++ hexByte b)) =
      (operandsText (' ' :: (ops ++ hexByte b))).bind fun vs =>
        (lineOf (c :: m) vs).bind expand := by
  apply assembleLine_of_parts hm
  · have hdigits := not_mem_hexByte b (c := ';') rfl
    simpa [hdigits] using hs
  · have hlast : isBlank (hexDigit (b.toNat % 16)) = false :=
      isBlank_of_mem_hexByte (b := b) (by simp [hexByte])
    simpa [hexByte] using trimBlanks_eq_self (m ++ ' ' :: (ops ++ [hexDigit (b.toNat / 16)]))
      (hm c List.mem_cons_self) hlast

theorem lineOf_update (b : Nat) :
    lineOf ['U', 'P', 'D', 'A', 'T', 'E'] [b] = some (.update b) := rfl

/-- `.word` is the mnemonic of no command (30_encoding.md R45). -/
theorem lineOf_word (vs : List Nat) : lineOf ['.', 'w', 'o', 'r', 'd'] vs = none := rfl

theorem assembleLine_update (b : Byte) :
    assembleLine (['U', 'P', 'D', 'A', 'T', 'E', ' ', '0', 'x'] ++ hexByte b) =
      some [.update b] := by
  have hparts := assembleLine_of_hexByte (c := 'U') (m := ['P', 'D', 'A', 'T', 'E'])
    (ops := ['0', 'x']) b (by simp [isBlank]) (by decide)
  refine hparts.trans ?_
  rw [List.cons_append, List.cons_append, List.nil_append, operandsText_hexByte, Option.bind_some,
    lineOf_update, Option.bind_some, expand_update]

theorem assembleLine_reserved (d : Byte) :
    assembleLine (['.', 'w', 'o', 'r', 'd', ' ', '0', 'x', '3'] ++ hexByte d) = none := by
  have hparts := assembleLine_of_hexByte (c := '.') (m := ['w', 'o', 'r', 'd'])
    (ops := ['0', 'x', '3']) d (by simp [isBlank]) (by decide)
  refine hparts.trans ?_
  simp [lineOf_word]

/-- The disassembler's line of a defined word assembles to its command, and that of a reserved word
is an assembly error (30_encoding.md R43, R45). -/
theorem assembleLine_disassemble (w : CmdWord) :
    assembleLine (disassemble w) = if (decode w).isDefined then some [decode w] else none := by
  rw [disassemble]
  cases decode w with
  | nop => decide
  | init => decide
  | update b => exact assembleLine_update b
  | reserved d => exact assembleLine_reserved d

theorem newline_not_mem_disassemble (w : CmdWord) : '\n' ∉ disassemble w := by
  rw [disassemble]
  cases decode w with
  | nop => decide
  | init => decide
  | update b => simpa using not_mem_hexByte b (c := '\n') rfl
  | reserved d => simpa using not_mem_hexByte d (c := '\n') rfl

/-- The listing of a stream assembles to its commands where all of them are defined, and is an
assembly error where one is not (30_encoding.md R45, R47). -/
theorem assemble_listing (ws : List CmdWord) :
    assemble (listing ws) =
      if definedStream (ws.map decode) then some (ws.map decode) else none := by
  induction ws with
  | nil => rfl
  | cons w ws ih =>
    have hall : definedStream ((w :: ws).map decode) =
        ((decode w).isDefined && definedStream (ws.map decode)) := rfl
    rw [listing, assemble_line_append _ (newline_not_mem_disassemble w), assembleLine_disassemble,
      ih, hall]
    cases (decode w).isDefined with
    | false => rfl
    | true => cases definedStream (ws.map decode) <;> rfl

end Sys2Proof.Machine

/-! SUPPORT. The proofs of the statements about the encoding. -/

namespace Sys2Proof.Machine

/-- Settles O2: the fields of the encoded word are those the decoder reads, and of a word the
decoder drops only the data field that the canonical word has cleared. -/
theorem encodeAndDecodeAgree : Obligations.EncodeAndDecodeAgree := by
  unfold Obligations.EncodeAndDecodeAgree
  exact ⟨decode_encode, encode_decode⟩

/-- Settles O5, by what the listing of any stream assembles to. -/
theorem listingAssemblesBack : Obligations.ListingAssemblesBack := by
  unfold Obligations.ListingAssemblesBack
  constructor
  · intro ws hdef
    have hall : definedStream (ws.map decode) = true := by simpa [definedStream] using hdef
    rw [assemble_listing, hall, if_pos rfl]
  · rintro ws ⟨w, hw, ho⟩
    have hnot : definedStream (ws.map decode) = false := by
      simpa [definedStream] using ⟨w, hw, isDefined_decode_of_reserved ho⟩
    rw [assemble_listing, hnot]
    rfl

/-- Settles O6, by the expansions and the run of CRC's commands. -/
theorem pseudoInstructionsExpand : Obligations.PseudoInstructionsExpand := by
  unfold Obligations.PseudoInstructionsExpand
  refine ⟨expand_crc, fun bs => expand_feed, fun bs is s rest hs h => ?_⟩
  obtain rfl : crcCommands bs = is := Option.some.inj ((expand_crc bs).symm.trans h)
  exact run_crcCommands bs rest hs

/-- Settles O1, by the fields of a word put together and taken apart. -/
theorem decodeSelectsByOpField : Obligations.DecodeSelectsByOpField := by
  unfold Obligations.DecodeSelectsByOpField
  exact ⟨decode_commandWord, fun w => (commandWord_fields w).symm⟩

/-- Settles O3, by evaluating the decoder on the listed words. -/
theorem specWordsDecodeAsWritten : Obligations.SpecWordsDecodeAsWritten := by
  unfold Obligations.SpecWordsDecodeAsWritten
  decide

/-- Settles O4: every row's mask leaves the op field, and the rows' match values differ. -/
theorem wordMatchesOnlyItsOwnRow : Obligations.WordMatchesOnlyItsOwnRow := by
  unfold Obligations.WordMatchesOnlyItsOwnRow
  exact fun w => ⟨(decode w).row_mem_opcodeTable, fun r hr => and_mask_eq_bits_iff hr w⟩

/-- Settles O18: the reserved op's arm does not look at the state, and its refusal sets one mark. -/
theorem reservedWordIsRefused : Obligations.ReservedWordIsRefused := by
  unfold Obligations.ReservedWordIsRefused
  refine ⟨fun s d => rfl, fun w => rfl, fun s hs hr ho => ?_⟩
  have hstep := step_of_reserved hs hr ho
  obtain ⟨-, hunrefused⟩ := hs
  refine ⟨hstep, ?_⟩
  rw [stateAfter_of_refused hstep]
  simp [hunrefused]

/-- Settles O21: a number of 10 bits is the command word that is placed, and the next step takes
it. -/
theorem tableWordRunsAsTheNextStep : Obligations.TableWordRunsAsTheNextStep := by
  unfold Obligations.TableWordRunsAsTheNextStep
  intro s nbits w hs hw hfit
  have hmod : w % 2 ^ nbits = w := Nat.mod_eq_of_lt hfit
  refine ⟨decode (BitVec.ofNat 10 w), ?_, ?_⟩
  · simp [decodeTableWord, hmod, isCommandWord, hw]
  · rw [State.withFetchWord, hmod, step_issueFirst_commandPair hs]

end Sys2Proof.Machine

/-! SUPPORT. The loop against the two bytes of a word, and Upd as a linear map and as a bijection
(40_crc_commands.md R56 to R59). -/

namespace Sys2Proof.Machine

theorem shiftSteps_eq_zero_iff (n : Nat) {t : Word16} : shiftSteps n t = 0 ↔ t = 0 := by
  have hzero : shiftSteps n 0 = 0 := by simpa using shiftSteps_xor n 0 0
  exact (shiftSteps_bijective n).injective.eq_iff' hzero

theorem zext16_xor (b d : Byte) : zext16 (b ^^^ d) = zext16 b ^^^ zext16 d := BitVec.setWidth_xor

theorem lowByte_zext16 (b : Byte) : lowByte (zext16 b) = b := by
  rw [zext16, lowByte, BitVec.extractLsb'_setWidth_of_le (by decide), BitVec.extractLsb'_eq_self]

theorem zext16_eq_zero_iff {b : Byte} : zext16 b = 0 ↔ b = 0 := by
  constructor
  · intro h
    rw [← lowByte_zext16 b, h]; rfl
  · rintro rfl; rfl

theorem lowByte_xor (v w : Word16) : lowByte (v ^^^ w) = lowByte v ^^^ lowByte w :=
  BitVec.extractLsb'_xor

theorem highByte_xor (v w : Word16) : highByte (v ^^^ w) = highByte v ^^^ highByte w :=
  BitVec.extractLsb'_xor

theorem joinBytes_zero_left (b : Byte) : joinBytes 0 b = zext16 b := by
  rw [joinBytes_eq_xor]; exact BitVec.xor_zero

theorem highByte_zext16 (b : Byte) : highByte (zext16 b) = 0 := by
  rw [← joinBytes_zero_left, highByte_joinBytes]

theorem shiftRight_eight (v : Word16) : v >>> 8 = zext16 (highByte v) := by
  apply BitVec.eq_of_getLsbD_eq
  intro i hi
  simp only [zext16, highByte, BitVec.getLsbD_ushiftRight, BitVec.getLsbD_setWidth,
    BitVec.getLsbD_extractLsb', hi]
  by_cases h : i < 8
  · simp [h]
  · simp [h, BitVec.getLsbD_of_ge v (8 + i) (by omega)]

theorem joinBytes_bijective : Function.Bijective fun p : Byte × Byte => joinBytes p.2 p.1 := by
  constructor
  · rintro ⟨lo, hi⟩ ⟨lo', hi'⟩ h
    obtain ⟨hlo, hhi⟩ := (joinBytes_eq_iff hi lo _).mp h
    rw [hlo, hhi, lowByte_joinBytes, highByte_joinBytes]
  · exact fun v => ⟨(lowByte v, highByte v), joinBytes_own v⟩

theorem upd_zero_left (b : Byte) : upd 0 b = shiftSteps 8 (zext16 b) := by
  rw [upd, zero_xor]

theorem upd_zero_right (c : Word16) : upd c 0 = shiftSteps 8 c := by
  rw [upd, zext16_eq_zero_iff.mpr rfl, xor_zero]

/-- Upd is linear in its two arguments together (40_crc_commands.md R56). -/
theorem upd_xor (c c' : Word16) (b b' : Byte) :
    upd (c ^^^ c') (b ^^^ b') = upd c b ^^^ upd c' b' := by
  rw [upd, upd, upd, ← shiftSteps_xor, zext16_xor]
  congr 1
  ac_rfl

theorem upd_eq_xor (c : Word16) (b : Byte) : upd c b = upd c 0 ^^^ upd 0 b := by
  simpa using upd_xor c 0 0 b

/-- Eight iterations run the low byte out of the word and bring the high byte down. -/
theorem shiftSteps_eight (v : Word16) :
    shiftSteps 8 v = upd 0 (lowByte v) ^^^ zext16 (highByte v) := by
  calc shiftSteps 8 v
      = shiftSteps 8 (zext16 (lowByte v) ^^^ zext16 (highByte v) <<< 8) := by
        rw [← joinBytes_eq_xor, joinBytes_own]
    _ = upd 0 (lowByte v) ^^^ zext16 (highByte v) := by
        rw [shiftSteps_xor, shiftSteps_zext16_shiftLeft _ le_rfl, upd_zero_left]

theorem upd_bijective (b : Byte) : Function.Bijective fun c : Word16 => upd c b :=
  (shiftSteps_bijective 8).comp (xor_left_involutive (zext16 b)).bijective

theorem upd_zero_left_eq_zero_iff {b : Byte} : upd 0 b = 0 ↔ b = 0 := by
  rw [upd_zero_left, shiftSteps_eq_zero_iff, zext16_eq_zero_iff]

theorem upd_upd_bijective (c : Word16) :
    Function.Bijective fun p : Byte × Byte => upd (upd c p.1) p.2 := by
  simp only [upd_upd]
  exact (shiftSteps_bijective 16).comp
    ((xor_right_involutive c).bijective.comp joinBytes_bijective)

/-- Only a register's own bytes clear it (40_crc_commands.md R58, R59). -/
theorem upd_upd_eq_zero_iff (c : Word16) (lo hi : Byte) :
    upd (upd c lo) hi = 0 ↔ lo = lowByte c ∧ hi = highByte c := by
  rw [upd_upd, shiftSteps_eq_zero_iff, xor_eq_zero_iff, eq_comm, joinBytes_eq_iff]

/-- The printed table lists Upd(0, i) by `i`; its 256 entries are evaluated
(95_test_vectors.md section 3). -/
theorem crcTable_eq_map_upd :
    crcTable = (List.range 256).map fun i => upd 0 (BitVec.ofNat 8 i) := by
  decide +kernel

theorem getElem?_crcTable (i : Byte) : crcTable[i.toNat]? = some (upd 0 i) := by
  simp [crcTable_eq_map_upd, i.isLt]

theorem tableEntry_eq_upd (i : Byte) : tableEntry i = upd 0 i := by
  rw [tableEntry, List.getD_eq_getElem?_getD, getElem?_crcTable, Option.getD_some]

/-- The table form looks the low byte up and shifts the high byte down (40_crc_commands.md R56). -/
theorem upd_eq_updByTable (c : Word16) (b : Byte) : upd c b = updByTable c b := by
  have hhigh : highByte (c ^^^ zext16 b) = highByte c := by
    rw [highByte_xor, highByte_zext16]; exact BitVec.xor_zero
  rw [upd, shiftSteps_eight, hhigh, updByTable, shiftRight_eight, tableEntry_eq_upd,
    BitVec.xor_comm]

/-- What a fixed point's low byte must be, its high byte being that of the table's entry. -/
theorem eq_zero_or_one_of_fold_upd_eq :
    ∀ lo : Byte, lowByte (upd 0 lo) ^^^ highByte (upd 0 lo) = lo → lo = 0 ∨ lo = 1 := by
  decide

/-- The fixed points of a zero byte's update (40_crc_commands.md R53). -/
theorem upd_zero_right_eq_self_iff (c : Word16) : upd c 0 = c ↔ c = 0 ∨ c = 0xC001 := by
  constructor
  · intro hfix
    have hsplit : upd 0 (lowByte c) ^^^ zext16 (highByte c) = c := by
      rw [← shiftSteps_eight, ← upd_zero_right, hfix]
    have hhigh : highByte (upd 0 (lowByte c)) = highByte c := by
      simpa [highByte_xor, highByte_zext16] using congrArg highByte hsplit
    have hlow : lowByte (upd 0 (lowByte c)) ^^^ highByte (upd 0 (lowByte c)) = lowByte c := by
      rw [hhigh]
      simpa [lowByte_xor, lowByte_zext16] using congrArg lowByte hsplit
    rw [← joinBytes_own c, ← hhigh]
    obtain hlo | hlo := eq_zero_or_one_of_fold_upd_eq _ hlow
    · rw [hlo]; exact .inl rfl
    · rw [hlo]; exact .inr rfl
  · rintro (rfl | rfl) <;> rfl

theorem crcFrom_injective (m : List Byte) : Function.Injective fun c => crcFrom c m := by
  induction m with
  | nil => exact Function.injective_id
  | cons b m ih => exact ih.comp (upd_bijective b).injective

/-- An encoded frame's trailer clears the register (40_crc_commands.md R58). -/
theorem crc16_encodeFrame (m : List Byte) : crc16 (encodeFrame m) = 0 := by
  rw [encodeFrame, crc16, crcFrom_append]
  exact (upd_upd_eq_zero_iff _ _ _).mpr ⟨rfl, rfl⟩

end Sys2Proof.Machine

/-! SUPPORT. The loop as division by the generator (40_crc_commands.md R55). -/

namespace Sys2Proof.Machine

/-- One term added to a polynomial product: what `polyMul` folds. -/
def addTerm {w : Nat} (a g acc : BitVec w) (i : Nat) : BitVec w :=
  if a.getLsbD i then acc ^^^ (g <<< i) else acc

theorem polyMul_eq_foldl_addTerm {w : Nat} (a g : BitVec w) :
    polyMul a g = (List.range w).foldl (addTerm a g) 0 := rfl

theorem addTerm_xor {w : Nat} (a b g u v : BitVec w) (i : Nat) :
    addTerm (a ^^^ b) g (u ^^^ v) i = addTerm a g u i ^^^ addTerm b g v i := by
  unfold addTerm
  rw [BitVec.getLsbD_xor]
  cases a.getLsbD i <;> cases b.getLsbD i
  case false.false => simp
  case false.true => simp; ac_rfl
  case true.false => simp; ac_rfl
  case true.true =>
    calc u ^^^ v = u ^^^ v ^^^ (g <<< i ^^^ g <<< i) := by simp
      _ = (u ^^^ g <<< i) ^^^ (v ^^^ g <<< i) := by ac_rfl

theorem foldl_addTerm_xor {w : Nat} (a b g u v : BitVec w) (is : List Nat) :
    is.foldl (addTerm (a ^^^ b) g) (u ^^^ v) =
      is.foldl (addTerm a g) u ^^^ is.foldl (addTerm b g) v := by
  induction is generalizing u v with
  | nil => rfl
  | cons i is ih => rw [List.foldl_cons, addTerm_xor, ih]; rfl

theorem polyMul_xor {w : Nat} (a b g : BitVec w) :
    polyMul (a ^^^ b) g = polyMul a g ^^^ polyMul b g := by
  simpa [polyMul_eq_foldl_addTerm] using foldl_addTerm_xor a b g 0 0 (List.range w)

theorem polyMul_zero_generator : polyMul 0#24 generator = 0#24 := by decide

/-- The product with a power of x below x^8. -/
theorem polyMul_power_generator :
    ∀ n < 8, polyMul (1#24 <<< n) generator = generator <<< n := by
  decide

/-- The bits of a bit-reversed word in the width of the polynomials. -/
theorem getLsbD_setWidth_reverse {w : Nat} (hw : w ≤ 24) (x : BitVec w) (i : Nat) :
    (x.reverse.setWidth 24).getLsbD i = (decide (i < w) && x.getLsbD (w - 1 - i)) := by
  rw [BitVec.getLsbD_setWidth, BitVec.getLsbD_reverse, BitVec.getMsbD_eq_getLsbD]
  by_cases h : i < w
  · simp [h, h.trans_le hw]
  · simp [h]

theorem getLsbD_registerPoly (t : Word16) (i : Nat) :
    (registerPoly t).getLsbD i = (decide (i < 16) && t.getLsbD (15 - i)) :=
  getLsbD_setWidth_reverse (by decide) t i

theorem getLsbD_bytePoly (b : Byte) (i : Nat) :
    (bytePoly b).getLsbD i = (decide (i < 8) && b.getLsbD (7 - i)) :=
  getLsbD_setWidth_reverse (by decide) b i

theorem registerPoly_xor (t v : Word16) :
    registerPoly (t ^^^ v) = registerPoly t ^^^ registerPoly v := by
  apply BitVec.eq_of_getLsbD_eq
  intro i _
  simp [getLsbD_registerPoly, Bool.and_xor_distrib_left]

/-- A data byte in the low half of the register is eight powers of x above its own polynomial. -/
theorem registerPoly_zext16 (b : Byte) : registerPoly (zext16 b) = bytePoly b <<< 8 := by
  apply BitVec.eq_of_getLsbD_eq
  intro i hi
  rw [BitVec.getLsbD_shiftLeft, getLsbD_registerPoly, getLsbD_bytePoly,
    zext16_getLsbD b (by omega)]
  by_cases h : i < 8
  · simp [h, BitVec.getLsbD_of_ge b (15 - i) (by omega)]
  · have hsub : 7 - (i - 8) = 15 - i := by omega
    have hlt : i - 8 < 8 ↔ i < 16 := by omega
    simp [h, hi, hsub, hlt]

/-- A right shift of the register multiplies its polynomial by x and drops the term x^16, which the
bit shifted out stands for. -/
theorem registerPoly_shiftLeft_one (t : Word16) :
    registerPoly t <<< 1 =
      registerPoly (t >>> 1) ^^^ (if t.getLsbD 0 then 1#24 <<< 16 else 0#24) := by
  apply BitVec.eq_of_getLsbD_eq
  intro i hi
  have htop : (if t.getLsbD 0 then 1#24 <<< 16 else 0#24).getLsbD i =
      (t.getLsbD 0 && decide (i = 16)) := by
    cases t.getLsbD 0
    case false => simp
    case true =>
      rw [if_pos rfl, ← BitVec.twoPow_eq, BitVec.getLsbD_twoPow]
      simp [eq_comm]
  rw [BitVec.getLsbD_xor, htop, BitVec.getLsbD_shiftLeft, getLsbD_registerPoly,
    getLsbD_registerPoly, BitVec.getLsbD_ushiftRight]
  obtain hlt | rfl | hgt : i < 16 ∨ i = 16 ∨ 16 < i := by omega
  · cases i with
    | zero => simp
    | succ i =>
      have hbit : 15 - i = 1 + (15 - (i + 1)) := by omega
      have hlt' : i < 16 := by omega
      simp [hlt, hlt', hi, hbit, hlt.ne]
  · simp
  · have hge : ¬ i - 1 < 16 := by omega
    simp [hge, hgt.not_gt, hgt.ne']

/-- One iteration takes the generator away once where the bit shifted out is 1. -/
theorem registerPoly_shiftLeft_one_eq (t : Word16) :
    registerPoly t <<< 1 =
      (if t.getLsbD 0 then generator else 0#24) ^^^ registerPoly (shiftStep t) := by
  have hgen : generator = 1#24 <<< 16 ^^^ registerPoly Config.polynomial := by decide
  rw [registerPoly_shiftLeft_one, shiftStep]
  cases t.getLsbD 0
  case false => simp
  case true =>
    calc registerPoly (t >>> 1) ^^^ 1#24 <<< 16
        = registerPoly (t >>> 1) ^^^ 1#24 <<< 16 ^^^
            (registerPoly Config.polynomial ^^^ registerPoly Config.polynomial) := by simp
      _ = generator ^^^ registerPoly (t >>> 1 ^^^ Config.polynomial) := by
          rw [hgen, registerPoly_xor]; ac_rfl

/-- Up to eight iterations divide by the generator, with a quotient of as many bits. -/
theorem exists_quotient_of_shiftSteps {n : Nat} (hn : n ≤ 8) (t : Word16) :
    ∃ q : BitVec 24, q.toNat < 2 ^ n ∧
      registerPoly t <<< n = polyMul q generator ^^^ registerPoly (shiftSteps n t) := by
  induction n generalizing t with
  | zero => exact ⟨0, by decide, by simp [polyMul_zero_generator]⟩
  | succ n ih =>
    obtain ⟨q, hq, hrem⟩ := ih (by omega) (shiftStep t)
    have hshift : registerPoly t <<< (n + 1) =
        (if t.getLsbD 0 then generator <<< n else 0#24) ^^^
          (polyMul q generator ^^^ registerPoly (shiftSteps n (shiftStep t))) := by
      rw [Nat.add_comm, BitVec.shiftLeft_add, registerPoly_shiftLeft_one_eq,
        BitVec.shiftLeft_xor_distrib, hrem]
      cases t.getLsbD 0 <;> simp
    rw [hshift, shiftSteps_succ, ← BitVec.xor_assoc]
    have hwide : q.toNat < 2 ^ (n + 1) := by omega
    cases t.getLsbD 0
    case false => exact ⟨q, hwide, by simp⟩
    case true =>
      refine ⟨1#24 <<< n ^^^ q, ?_, ?_⟩
      · have hone : (1#24 <<< n).toNat = 2 ^ n := by
          rw [← BitVec.twoPow_eq, BitVec.toNat_twoPow_of_lt (by omega)]
        rw [BitVec.toNat_xor, hone]
        exact Nat.xor_lt_two_pow (Nat.pow_lt_pow_succ (by decide)) hwide
      · rw [polyMul_xor, polyMul_power_generator n hn]; rfl

end Sys2Proof.Machine

/-! SUPPORT. A frame with one bit inverted (40_crc_commands.md R60; 41_outputs_and_frames.md R66, R68). -/

namespace Sys2Proof.Machine

theorem splitTrailer_cons (b : Byte) {f covered : List Byte} {lo hi : Byte}
    (h : splitTrailer f = some (covered, lo, hi)) :
    splitTrailer (b :: f) = some (b :: covered, lo, hi) := by
  match f with
  | [] => simp [splitTrailer] at h
  | [x] => simp [splitTrailer] at h
  | x :: y :: rest => simp [splitTrailer, h]

theorem splitTrailer_append (m : List Byte) (lo hi : Byte) :
    splitTrailer (m ++ [lo, hi]) = some (m, lo, hi) := by
  induction m with
  | nil => rfl
  | cons b m ih => exact splitTrailer_cons b ih

theorem checkFrame_append (m : List Byte) (lo hi : Byte) :
    checkFrame (m ++ [lo, hi]) = some (decide (crc16 m = joinBytes hi lo)) := by
  rw [checkFrame, splitTrailer_append]; rfl

theorem encodeFrame_eq_append (m : List Byte) :
    encodeFrame m = m ++ [lowByte (crc16 m), highByte (crc16 m)] := rfl

theorem flipBit_cons_zero (b : Byte) (f : List Byte) (j : Nat) :
    flipBit (b :: f) 0 j = (b ^^^ 1#8 <<< j) :: f := rfl

theorem flipBit_cons_succ (b : Byte) (f : List Byte) (k j : Nat) :
    flipBit (b :: f) (k + 1) j = b :: flipBit f k j := rfl

theorem flipBit_append_of_lt {m : List Byte} (n : List Byte) {k : Nat} (j : Nat)
    (h : k < m.length) : flipBit (m ++ n) k j = flipBit m k j ++ n := by
  induction m generalizing k with
  | nil => exact absurd h (Nat.not_lt_zero k)
  | cons b m ih =>
    cases k with
    | zero => rfl
    | succ k => exact congrArg (b :: ·) (ih (Nat.lt_of_succ_lt_succ h))

theorem flipBit_append_add (m n : List Byte) (i j : Nat) :
    flipBit (m ++ n) (m.length + i) j = m ++ flipBit n i j := by
  induction m with
  | nil => rw [List.length_nil, Nat.zero_add]; rfl
  | cons b m ih => rw [List.length_cons, Nat.add_right_comm]; exact congrArg (b :: ·) ih

theorem one_shiftLeft_ne_zero {j : Nat} (h : j < 8) : 1#8 <<< j ≠ 0 := by
  revert j
  decide

theorem xor_ne_self {w : Nat} (b : BitVec w) {e : BitVec w} (h : e ≠ 0) : b ^^^ e ≠ b :=
  fun hb => h ((BitVec.xor_right_inj b).mp (hb.trans BitVec.xor_zero.symm))

theorem crcFrom_xor (c d : Word16) (m : List Byte) :
    crcFrom (c ^^^ d) m = crcFrom c m ^^^ (fun c => upd c 0)^[m.length] d := by
  induction m generalizing c d with
  | nil => rfl
  | cons b m ih =>
    have hstep : upd (c ^^^ d) b = upd c b ^^^ upd d 0 := by simpa using upd_xor c d b 0
    rw [crcFrom_cons, crcFrom_cons, hstep, ih, List.length_cons, Function.iterate_succ_apply]

/-- The difference an inverted bit makes is carried on by every later byte as by a zero byte
(40_crc_commands.md R60). -/
theorem crcFrom_flipBit (c : Word16) {m : List Byte} {k : Nat} (j : Nat) (h : k < m.length) :
    crcFrom c (flipBit m k j) =
      crcFrom c m ^^^ (fun c => upd c 0)^[m.length - 1 - k] (upd 0 (1#8 <<< j)) := by
  induction m generalizing c k with
  | nil => exact absurd h (Nat.not_lt_zero k)
  | cons b m ih =>
    cases k with
    | zero =>
      have hstep : upd c (b ^^^ 1#8 <<< j) = upd c b ^^^ upd 0 (1#8 <<< j) := by
        simpa using upd_xor c 0 b (1#8 <<< j)
      rw [flipBit_cons_zero, crcFrom_cons, crcFrom_cons, hstep, crcFrom_xor]
      rfl
    | succ k =>
      have hlater : (b :: m).length - 1 - (k + 1) = m.length - 1 - k := by
        rw [List.length_cons]; omega
      rw [flipBit_cons_succ, crcFrom_cons, crcFrom_cons, ih _ (Nat.lt_of_succ_lt_succ h), hlater]

/-- A difference that is not 0 never dies out (40_crc_commands.md R57, R60). -/
theorem iterate_upd_flip_ne_zero (n : Nat) {j : Nat} (h : j < 8) :
    (fun c => upd c 0)^[n] (upd 0 (1#8 <<< j)) ≠ 0 := by
  have hfix : (fun c => upd c 0)^[n] 0 = 0 :=
    Function.iterate_fixed (f := fun c => upd c 0) (upd_zero_left_eq_zero_iff.mpr rfl) n
  have hinj := (upd_bijective 0).injective.iterate n
  exact (hinj.ne_iff' hfix).mpr fun hz => one_shiftLeft_ne_zero h (upd_zero_left_eq_zero_iff.mp hz)

theorem crc16_flipBit_ne {m : List Byte} {k j : Nat} (hk : k < m.length) (hj : j < 8) :
    crc16 (flipBit m k j) ≠ crc16 m := by
  rw [crc16, crcFrom_flipBit _ j hk]
  exact xor_ne_self _ (iterate_upd_flip_ne_zero _ hj)

/-- A bit inverted in the trailer leaves the covered bytes and spoils the compare value. -/
theorem flipBit_encodeFrame_of_trailer {m : List Byte} {k j : Nat} (hm : m.length ≤ k)
    (hk : k < m.length + 2) (hj : j < 8) :
    ∃ lo hi : Byte, flipBit (encodeFrame m) k j = m ++ [lo, hi] ∧ joinBytes hi lo ≠ crc16 m := by
  obtain ⟨i, rfl⟩ := Nat.exists_eq_add_of_le hm
  rw [encodeFrame_eq_append, flipBit_append_add]
  have hne := one_shiftLeft_ne_zero hj
  obtain rfl | rfl : i = 0 ∨ i = 1 := by omega
  · exact ⟨_, _, rfl, fun h => xor_ne_self _ hne ((joinBytes_eq_iff _ _ _).mp h).1⟩
  · exact ⟨_, _, rfl, fun h => xor_ne_self _ hne ((joinBytes_eq_iff _ _ _).mp h).2⟩

theorem checkFrame_flipBit_encodeFrame {m : List Byte} {k j : Nat} (hk : k < m.length + 2)
    (hj : j < 8) : checkFrame (flipBit (encodeFrame m) k j) = some false := by
  obtain hcov | htr := Nat.lt_or_ge k m.length
  · rw [encodeFrame_eq_append, flipBit_append_of_lt _ j hcov, checkFrame_append, joinBytes_own]
    simp [crc16_flipBit_ne hcov hj]
  · obtain ⟨lo, hi, hf, hne⟩ := flipBit_encodeFrame_of_trailer htr hk hj
    rw [hf, checkFrame_append]
    simp [hne.symm]

end Sys2Proof.Machine

/-! SUPPORT. The words of each command, the step of an unmarked state by its command, and the run of a
stream of defined commands (40_crc_commands.md R48, R51 to R53). -/

namespace Sys2Proof

theorem decode_eq_nop_iff {w : CmdWord} : decode w = .nop ↔ opField w = 0b00#2 := by
  obtain ⟨ho, hd⟩ | ⟨ho, hd⟩ | ⟨ho, hd⟩ | ⟨ho, hd⟩ := decode_cases w <;> simp [ho, hd]

theorem decode_nop_word (d : Byte) : decode (commandWord 0b00#2 d) = .nop :=
  decode_commandWord 0b00#2 d

theorem decode_init_word (d : Byte) : decode (commandWord 0b01#2 d) = .init :=
  decode_commandWord 0b01#2 d

theorem encode_update_dataField {w : CmdWord} (h : opField w = 0b10#2) :
    encode (.update (dataField w)) = w := by
  rw [encode, ← h, commandWord_fields]

/-- UPDATE's word is a number (30_encoding.md R45). -/
theorem encode_update_eq_add (d : Byte) : encode (.update d) = 0x200 + d.setWidth 10 := by
  apply BitVec.eq_of_toNat_eq
  have hlt : d.toNat < 256 := d.isLt
  calc (encode (.update d)).toNat
      = 2 <<< 8 ||| d.toNat := BitVec.toNat_append _ _
    _ = 0x200 + d.toNat := (Nat.shiftLeft_add_eq_or_of_lt d.isLt 2).symm
    _ = (0x200 + d.setWidth 10).toNat := by
        have hnum : (0x200 : CmdWord).toNat = 0x200 := rfl
        rw [BitVec.toNat_add, BitVec.toNat_setWidth, hnum]
        omega

namespace Machine

theorem State.writeCrc_eq_self {s : State} {c : Word16} (h : s.crc = some c) :
    s.writeCrc c = s := by
  rw [State.writeCrc, ← h]

theorem step_of_rst {s : State} (hs : s.unmarked) (hr : s.nextPair.rst = true) :
    step s = .next s.afterPair.resetCrc := by
  rw [step_of_unmarked hs, stepPair, if_pos hr]

theorem step_of_command {s : State} {i : Instr} (hs : s.unmarked) (hr : s.nextPair.rst = false)
    (hd : decode s.nextPair.cmd = i) : step s = exec i s.afterPair := by
  rw [step_of_unmarked hs, stepPair, hr, hd]; rfl

/-- The register after a defined command that ran where it held `c` (40_crc_commands.md R51 to
R53). -/
def crcAfter (c : Word16) : Instr → Word16
  | .nop => c
  | .init => Config.initialValue
  | .update b => upd c b
  | .reserved _ => c

theorem exec_of_isDefined {i : Instr} {s : State} {c : Word16} (hi : i.isDefined = true)
    (hc : s.crc = some c) : exec i s = .next (s.writeCrc (crcAfter c i)) := by
  cases i with
  | nop => rw [crcAfter, State.writeCrc_eq_self hc]; rfl
  | init => rfl
  | update b => exact exec_update_of_some b hc
  | reserved d => exact absurd hi Bool.false_ne_true

/-- A stream of defined commands completes wherever `crc` holds a value, and what it leaves there is a
function of that value (10_state.md R21). -/
theorem run_definedStream {is : List Instr} {s : State} {c : Word16} (rest : List PortPair)
    (his : definedStream is = true) (hs : s.unmarked) (hc : s.crc = some c) :
    core.run is.length { s with inputs := commandPairs is ++ rest } =
      .next { s with crc := some (is.foldl crcAfter c), inputs := rest } := by
  induction is generalizing s c with
  | nil => rw [List.foldl_nil, ← hc]; rfl
  | cons i is ih =>
    obtain ⟨hi, htail⟩ : i.isDefined = true ∧ definedStream is = true := by
      simpa [definedStream] using his
    have hrun := run_issueFirst (s := { s with inputs := commandPairs is ++ rest }) is.length hs
      (exec_of_isDefined hi hc)
    exact hrun.trans (ih (s := s.writeCrc (crcAfter c i)) htail hs rfl)

/-- After an INIT a stream of defined commands completes from any unmarked state, ⊥ included
(40_crc_commands.md R52). -/
theorem run_init_definedStream {is : List Instr} {s : State} (rest : List PortPair)
    (his : definedStream is = true) (hs : s.unmarked) :
    core.run (1 + is.length) { s with inputs := commandPairs (.init :: is) ++ rest } =
      .next { s with crc := some (is.foldl crcAfter Config.initialValue), inputs := rest } := by
  have hrun := run_issueFirst (s := { s with inputs := commandPairs is ++ rest }) is.length hs
    (exec_init _)
  rw [Nat.add_comm]
  exact hrun.trans (run_definedStream (s := s.writeCrc Config.initialValue) rest his hs rfl)

theorem step_nop_word {s : State} (hs : s.unmarked) (d : Byte) :
    step (s.issueFirst (commandPair (commandWord 0b00#2 d))) = .next s := by
  rw [step_issueFirst_commandPair hs, decode_nop_word]; rfl

/-- Words with op 00 run as NOP, whatever their data bytes (40_crc_commands.md R51). -/
theorem run_nop_words (ds : List Byte) {s : State} (rest : List PortPair) (hs : s.unmarked) :
    core.run ds.length
      { s with inputs := ds.map (fun d => commandPair (commandWord 0b00#2 d)) ++ rest } =
      .next { s with inputs := rest } := by
  induction ds with
  | nil => rfl
  | cons d ds ih =>
    refine (run_of_step ds.length ?_).trans ih
    exact step_nop_word (s := { s with inputs := ds.map _ ++ rest }) hs d

end Machine

end Sys2Proof

/-! SUPPORT. The proofs of the statements about the CRC function and its commands. -/

namespace Sys2Proof.Machine

/-- Settles O9: linearity is that of the loop, and the table form is the loop on a word's two bytes. -/
theorem updIsLinearAndEqualsTableForm : Obligations.UpdIsLinearAndEqualsTableForm := by
  unfold Obligations.UpdIsLinearAndEqualsTableForm
  exact ⟨upd_xor, upd_eq_xor, getElem?_crcTable, upd_eq_updByTable⟩

/-- Settles O10, as the loop and an exclusive or are bijections. -/
theorem updIsBijectiveInTheRegister : Obligations.UpdIsBijectiveInTheRegister := by
  unfold Obligations.UpdIsBijectiveInTheRegister
  exact ⟨upd_bijective, fun _ => upd_zero_left_eq_zero_iff⟩

/-- Settles O11, by the pairs of bytes that clear a register. -/
theorem ownBytesClearTheRegister : Obligations.OwnBytesClearTheRegister := by
  unfold Obligations.OwnBytesClearTheRegister
  exact ⟨fun c => (upd_upd_eq_zero_iff c _ _).mpr ⟨rfl, rfl⟩, crc16_encodeFrame,
    crc16_encodeFrame⟩

/-- Settles O12: two updates are sixteen iterations, a bijection, on the word of the two bytes. -/
theorem trailerIsUnique : Obligations.TrailerIsUnique := by
  unfold Obligations.TrailerIsUnique
  exact fun c => ⟨upd_upd_bijective c, upd_upd_eq_zero_iff c⟩

/-- Settles O13, by eight steps of the division on the register against the byte. -/
theorem updIsRemainderModuloGenerator : Obligations.UpdIsRemainderModuloGenerator := by
  unfold Obligations.UpdIsRemainderModuloGenerator
  intro c b
  obtain ⟨q, hq, hrem⟩ := exists_quotient_of_shiftSteps le_rfl (c ^^^ zext16 b)
  refine ⟨q, hq, ?_⟩
  calc registerPoly c <<< 8 ^^^ bytePoly b <<< 16
      = registerPoly (c ^^^ zext16 b) <<< 8 := by
        rw [registerPoly_xor, registerPoly_zext16, BitVec.shiftLeft_xor_distrib,
          ← BitVec.shiftLeft_add]
    _ = polyMul q generator ^^^ registerPoly (upd c b) := hrem

/-- Settles O14, by where the inverted bit stands: a trailer byte, or a covered byte whose difference
no later byte clears. -/
theorem singleBitErrorIsDetected : Obligations.SingleBitErrorIsDetected := by
  unfold Obligations.SingleBitErrorIsDetected
  refine ⟨fun m k j => checkFrame_flipBit_encodeFrame, fun m k j hm hk hj => ?_,
    fun m k j hk _ => crcFrom_flipBit _ j hk, fun n j => iterate_upd_flip_ne_zero n⟩
  obtain ⟨lo, hi, hf, hne⟩ := flipBit_encodeFrame_of_trailer hm hk hj
  exact ⟨lo, hi, by rw [hf, splitTrailer_append], hne⟩

/-- Settles O15, by induction on the words for the last clause. -/
theorem nopHoldsTheRegister : Obligations.NopHoldsTheRegister := by
  unfold Obligations.NopHoldsTheRegister
  exact ⟨fun s => rfl, decode_nop_word, rfl, fun ds s rest => run_nop_words ds rest⟩

/-- Settles O17, by the two cases of `crc` and the bijection and fixed points of Upd. -/
theorem updateFoldsOneByte : Obligations.UpdateFoldsOneByte := by
  unfold Obligations.UpdateFoldsOneByte
  exact ⟨fun s c b => exec_update_of_some b, fun s b => exec_update_of_none b,
    fun d => ⟨decode_encode (.update d), encode_update_eq_add d⟩, by decide, by decide, by decide,
    upd_zero_right_eq_self_iff, fun b => (upd_bijective b).existsUnique 0⟩

/-- Settles O22, one condition after the other, by the command that each op decodes to. -/
theorem stepTakesConditionsInOrder : Obligations.StepTakesConditionsInOrder := by
  unfold Obligations.StepTakesConditionsInOrder
  refine ⟨fun s hn => step_of_marked ((State.marked_eq_true_iff s).2 hn), fun s => step_of_rst,
    fun s => step_of_reserved, fun s hs hr ho hc => ?_, fun s c hs hr ho hc => ?_,
    fun s hs hr ho => ?_, fun s hs hr ho => ?_⟩
  · rw [step_of_command hs hr (decode_eq_update_iff.mpr ⟨ho, rfl⟩),
      exec_update_of_none _ (s.afterPair_crc.trans hc), encode_update_dataField ho]
  · rw [step_of_command hs hr (decode_eq_update_iff.mpr ⟨ho, rfl⟩)]
    exact exec_update_of_some _ (s.afterPair_crc.trans hc)
  · exact step_of_command hs hr (decode_eq_init_iff.mpr ho)
  · exact step_of_command hs hr (decode_eq_nop_iff.mpr ho)

/-- Settles O37: what the commands leave is a function of INIT's value. -/
theorem initForgetsEarlierBytes : Obligations.InitForgetsEarlierBytes := by
  unfold Obligations.InitForgetsEarlierBytes
  exact fun s s' is rest rest' hs hs' his =>
    ⟨_, _, run_init_definedStream rest his hs, run_init_definedStream rest' his hs', rfl⟩

/-- Settles O38: the fold over any bytes is injective in the value it starts from. -/
theorem withoutInitTheOldValueCounts : Obligations.WithoutInitTheOldValueCounts := by
  unfold Obligations.WithoutInitTheOldValueCounts
  exact ⟨fun m s c rest => run_feedCommands m rest, fun m c => (crcFrom_injective m).eq_iff⟩

/-- Settles O7, by the fold and the evaluation of the check value. -/
theorem crc16FoldsUpdFromInitialValue : Obligations.Crc16FoldsUpdFromInitialValue := by
  unfold Obligations.Crc16FoldsUpdFromInitialValue
  exact ⟨crc16_nil, crc16_append_singleton, by decide +kernel⟩

/-- Settles O16: INIT writes the initial value whatever the state, so that it changes nothing where that
value stands. -/
theorem initLoadsTheInitialValue : Obligations.InitLoadsTheInitialValue := by
  unfold Obligations.InitLoadsTheInitialValue
  refine ⟨exec_init, decode_init_word, rfl, fun s hc => ?_, fun s t h => ?_⟩
  · rw [exec_init]
    exact congrArg _ (State.writeCrc_eq_self hc)
  · obtain rfl := Host.Outcome.next.inj h
    rfl

end Sys2Proof.Machine

/-! SUPPORT. The commands of a frame's sequence run to their end, and the check by residue beside the check
by compare (41_outputs_and_frames.md R67 to R71; 70_reset_and_hazards.md R95). -/

namespace Sys2Proof.Machine

/-- A sequence is one INIT and an UPDATE for each byte (70_reset_and_hazards.md R95). -/
theorem crcCommands_length (m : List Byte) : (crcCommands m).length = 1 + m.length := by
  rw [crcCommands, feedCommands, List.length_cons, List.length_map, Nat.add_comm]

/-- An encoder's or a decoder's sequence completes from any unmarked state, ⊥ included. -/
theorem run_sequence (m : List Byte) {s : State} (rest : List PortPair) (hs : s.unmarked) :
    core.run (1 + m.length) { s with inputs := commandPairs (crcCommands m) ++ rest } =
      .next { s with crc := some (crc16 m), inputs := rest } := by
  rw [← crcCommands_length]
  exact run_crcCommands m rest hs

theorem exists_eq_append_trailer {f : List Byte} (h : 2 ≤ f.length) :
    ∃ (m : List Byte) (lo hi : Byte), f = m ++ [lo, hi] := by
  obtain ⟨lo, hi, htrailer⟩ : ∃ lo hi, f.drop (f.length - 2) = [lo, hi] :=
    List.length_eq_two.mp (by rw [List.length_drop]; omega)
  exact ⟨f.take (f.length - 2), lo, hi, by rw [← htrailer, List.take_append_drop]⟩

theorem checkByResidue_eq_true_iff (f : List Byte) : checkByResidue f = true ↔ crc16 f = 0 :=
  beq_iff_eq

/-- A trailer fed after the covered bytes clears the register exactly when it is the pair of their CRC's
own bytes (40_crc_commands.md R58, R59). -/
theorem crc16_append_trailer_eq_zero_iff (m : List Byte) (lo hi : Byte) :
    crc16 (m ++ [lo, hi]) = 0 ↔ lo = lowByte (crc16 m) ∧ hi = highByte (crc16 m) := by
  rw [crc16, crcFrom_append]
  exact upd_upd_eq_zero_iff (crc16 m) lo hi

/-- What `match` and the check by compare test, in the two trailer bytes. -/
theorem crc16_eq_joinBytes_iff (m : List Byte) (lo hi : Byte) :
    crc16 m = joinBytes hi lo ↔ lo = lowByte (crc16 m) ∧ hi = highByte (crc16 m) :=
  eq_comm.trans (joinBytes_eq_iff hi lo (crc16 m))

/-- The two checks agree on every frame that has a trailer (41_outputs_and_frames.md R71). -/
theorem checkFrame_eq_checkByResidue {f : List Byte} (h : 2 ≤ f.length) :
    checkFrame f = some (checkByResidue f) := by
  obtain ⟨m, lo, hi, rfl⟩ := exists_eq_append_trailer h
  rw [checkFrame_append, Option.some_inj, Bool.eq_iff_iff, decide_eq_true_iff,
    checkByResidue_eq_true_iff, crc16_eq_joinBytes_iff, crc16_append_trailer_eq_zero_iff]

theorem checkFrame_encodeFrame (m : List Byte) : checkFrame (encodeFrame m) = some true := by
  rw [encodeFrame_eq_append, checkFrame_append, joinBytes_own, decide_eq_true rfl]

@[simp] theorem flipBit_length (f : List Byte) (k j : Nat) : (flipBit f k j).length = f.length :=
  List.length_modify _ _ _

/-- A frame that passes is taken apart into the message that was sent (41_outputs_and_frames.md R70). -/
theorem acceptFrame_encodeFrame (msg : Message) :
    acceptFrame (encodeFrame msg.covered) = some msg := by
  rw [acceptFrame, checkFrame_encodeFrame, encodeFrame_eq_append, splitTrailer_append]
  rfl

end Sys2Proof.Machine

/-! SUPPORT. The proofs of the statements about the outputs and the frames. -/

namespace Sys2Proof.Machine

/-- Settles O32, by the run of the sequence and the outputs at the value it leaves. -/
theorem encoderSequenceLeavesCrc16 : Obligations.EncoderSequenceLeavesCrc16 := by
  unfold Obligations.EncoderSequenceLeavesCrc16
  exact fun m s rest hs => ⟨_, run_sequence m rest hs, observeCrcQ_of_some rfl,
    observeCrcLo_of_some rfl, observeCrcHi_of_some rfl, rfl, hs⟩

/-- Settles O33: `match` and the check by compare test the same equation, which fixes both bytes. -/
theorem decoderSequenceGivesTheVerdict : Obligations.DecoderSequenceGivesTheVerdict := by
  unfold Obligations.DecoderSequenceGivesTheVerdict
  exact fun m lo hi s rest hs => ⟨_, _, run_sequence m rest hs, observeMatch_of_some lo hi rfl,
    checkFrame_append m lo hi, decide_eq_true_iff.trans (crc16_eq_joinBytes_iff m lo hi)⟩

/-- Settles O34: the two checks agree because only a register's own bytes clear it. -/
theorem residueGivesTheSameVerdict : Obligations.ResidueGivesTheSameVerdict := by
  unfold Obligations.ResidueGivesTheSameVerdict
  refine ⟨fun f => checkFrame_eq_checkByResidue, fun f s rest hs hf => ?_⟩
  refine ⟨_, crc16 f, run_sequence f rest hs, observeCrcQ_of_some rfl, ?_⟩
  rw [checkFrame_eq_checkByResidue hf, Option.some_inj, checkByResidue_eq_true_iff]

/-- Settles O35: the compare's verdicts carry over to the residue, as the two checks agree. -/
theorem encodedFramesRoundTrip : Obligations.EncodedFramesRoundTrip := by
  unfold Obligations.EncodedFramesRoundTrip
  refine ⟨fun m => ⟨checkFrame_encodeFrame m, ?_⟩, fun m k j hk hj => ?_, acceptFrame_encodeFrame⟩
  · exact (checkByResidue_eq_true_iff _).mpr (crc16_encodeFrame m)
  · rw [encodeFrame_length] at hk
    have hlen : 2 ≤ (flipBit (encodeFrame m) k j).length := by simp
    have hcompare := checkFrame_flipBit_encodeFrame hk hj
    have hagree := checkFrame_eq_checkByResidue hlen
    exact ⟨hcompare, Option.some.inj (hagree.symm.trans hcompare)⟩

/-- Settles O41, by what each output shows at a value of `crc` and at ⊥. -/
theorem outputsShowTheRegister : Obligations.OutputsShowTheRegister := by
  unfold Obligations.OutputsShowTheRegister
  constructor
  · exact fun s c hc => ⟨observeCrcQ_of_some hc, observeCrcLo_of_some hc, observeCrcHi_of_some hc,
      fun lo hi => observeMatch_of_some lo hi hc⟩
  · exact fun s hc => ⟨observeCrcQ_of_none hc, observeCrcLo_of_none hc, observeCrcHi_of_none hc,
      fun lo hi => observeMatch_of_none lo hi hc⟩

end Sys2Proof.Machine

/-! SUPPORT. When a step is refused, when it faults, and that a recorded fault ends the steps
(60_exceptions.md R74, R75). -/

namespace Sys2Proof.Machine

/-- UPDATE reads the register, so that at ⊥ its step faults with the word as info
(60_exceptions.md R75). -/
theorem step_of_update_of_none {s : State} (hs : s.unmarked) (hr : s.nextPair.rst = false)
    (ho : opField s.nextPair.cmd = 0b10#2) (hc : s.crc = none) :
    step s = .fault (.readUnset (.command s.nextPair.cmd)) := by
  rw [step_of_command hs hr (decode_eq_update_iff.mpr ⟨ho, rfl⟩),
    exec_update_of_none _ (s.afterPair_crc.trans hc), encode_update_dataField ho]

/-- The reserved op is the only ground of a refusal (60_exceptions.md R74). -/
theorem step_eq_refused_iff {s : State} (hs : s.unmarked) (r : Refusal) :
    step s = .refused r ↔ s.nextPair.rst = false ∧ opField s.nextPair.cmd = 0b11#2 ∧
      r = .reservedOp s.nextPair.cmd := by
  constructor
  · intro h
    obtain ⟨_, hr, he⟩ := step_refused_cases h
    obtain ⟨d, hd, rfl⟩ := exec_refused_cases he
    obtain ⟨ho, rfl⟩ := decode_eq_reserved_iff.mp hd
    exact ⟨hr, ho, by rw [encode_reserved_dataField ho]⟩
  · rintro ⟨hr, ho, rfl⟩
    exact step_of_reserved hs hr ho

/-- UPDATE at ⊥ is the only ground of a fault of an unmarked state's step (60_exceptions.md R74). -/
theorem step_eq_fault_iff {s : State} (hs : s.unmarked) (f : Fault) :
    step s = .fault f ↔ s.nextPair.rst = false ∧ opField s.nextPair.cmd = 0b10#2 ∧ s.crc = none ∧
      f = .readUnset (.command s.nextPair.cmd) := by
  constructor
  · intro h
    obtain ⟨hr, he⟩ := step_fault_cases hs h
    obtain ⟨b, hd, hc, rfl⟩ := exec_fault_cases he
    obtain ⟨ho, rfl⟩ := decode_eq_update_iff.mp hd
    exact ⟨hr, ho, s.afterPair_crc.symm.trans hc, by rw [encode_update_dataField ho]⟩
  · rintro ⟨hr, ho, hc, rfl⟩
    exact step_of_update_of_none hs hr ho hc

/-- A fault's mark stands whatever mark stood before, so that no step follows (10_state.md R25). -/
theorem step_markFault_ne_next (s t : State) (r : FaultReason) : step (s.markFault r) ≠ .next t := by
  have hm : (s.markFault r).marked = true := by rw [State.markFault_eq]; rfl
  simp [step_of_marked hm]

/-- A fault recorded at ⊥ leaves ⊥ and its reason, and ends the steps (60_exceptions.md R75). -/
theorem markFault_stops_of_none {s : State} (hc : s.crc = none) (r : FaultReason) :
    (s.markFault r).crc = none ∧ (s.markFault r).faultMark = some r ∧
      ∀ t : State, step (s.markFault r) ≠ .next t :=
  ⟨hc, by rw [State.markFault_eq], fun t => step_markFault_ne_next s t r⟩

end Sys2Proof.Machine

/-! SUPPORT. The proofs of the statements about the stops. -/

namespace Sys2Proof.Machine

/-- Settles O26, by the one command that is refused and the one that faults. -/
theorem outcomeCodesAreTheListed : Obligations.OutcomeCodesAreTheListed := by
  unfold Obligations.OutcomeCodesAreTheListed
  exact ⟨fun s r hs => step_eq_refused_iff hs r, fun s f hs => step_eq_fault_iff hs f,
    fun w => rfl, fun src => rfl⟩

/-- Settles O43: UPDATE and an observation at ⊥ record the same fault, the one after the pair is taken
and the other on the state as it is. -/
theorem readUnsetStopsTheInstance : Obligations.ReadUnsetStopsTheInstance := by
  unfold Obligations.ReadUnsetStopsTheInstance
  refine ⟨fun s b hs hc hp => ?_, fun o s hc => ?_⟩
  · have hstep : step s = .fault (.readUnset (.command (commandWord 0b10#2 b))) :=
      (step_eq_fault_iff hs _).mpr ⟨by rw [hp], by rw [hp, opField_commandWord], hc, by rw [hp]⟩
    refine ⟨hstep, ?_⟩
    rw [stateAfter_of_fault hs hstep]
    exact markFault_stops_of_none (s.afterPair_crc.trans hc) .readUnset
  · rw [stateAfterObserving_of_none o hc]
    exact markFault_stops_of_none hc .readUnset

end Sys2Proof.Machine

/-! SUPPORT. A reset at the head of the pairs, the run that goes on from it, and the states that take no
step at all (10_state.md R25; 70_reset_and_hazards.md R85, R89). -/

namespace Sys2Proof.Machine

/-- A reset issued ahead of every other pair is the next step's, and its word is not decoded
(70_reset_and_hazards.md R85). -/
theorem step_issueFirst_reset {s : State} (hs : s.unmarked) (w : CmdWord) :
    step (s.issueFirst ⟨true, w⟩) = .next s.resetCrc :=
  step_of_rst (s := s.issueFirst ⟨true, w⟩) hs rfl

/-- A reset loads the value an INIT loads, so that the UPDATEs after it complete as after an INIT
(70_reset_and_hazards.md R89). -/
theorem run_reset_feedCommands (m : List Byte) (w : CmdWord) {s : State} (rest : List PortPair)
    (hs : s.unmarked) :
    core.run (1 + m.length)
      { s with inputs := ⟨true, w⟩ :: (commandPairs (feedCommands m) ++ rest) } =
      .next { s with crc := some (crc16 m), inputs := rest } := by
  have hreset := run_of_step m.length
    (step_issueFirst_reset (s := { s with inputs := commandPairs (feedCommands m) ++ rest }) hs w)
  rw [Nat.add_comm]
  exact hreset.trans (run_feedCommands m (s := s.resetCrc) rest hs rfl)

/-- A marked state takes no step, whatever its next pair, and stays as it is (10_state.md R25). -/
theorem stays_of_not_unmarked {s : State} (hn : ¬ s.unmarked) :
    (∀ t : State, step s ≠ .next t) ∧ stateAfter s = s := by
  have hm := (State.marked_eq_true_iff s).2 hn
  exact ⟨by simp [step_of_marked hm], stateAfter_of_marked hm⟩

end Sys2Proof.Machine

/-! SUPPORT. The proofs of the statements about reset. -/

namespace Sys2Proof.Machine

/-- Settles O39, by the run of the UPDATEs from the value that the reset loads. -/
theorem resetStandsInForInit : Obligations.ResetStandsInForInit := by
  unfold Obligations.ResetStandsInForInit
  exact fun m w s rest => run_reset_feedCommands m w rest

/-- Settles O23: a reset writes the register alone, and a mark stops a reset as it stops every step. -/
theorem resetLoadsTheInitialValue : Obligations.ResetLoadsTheInitialValue := by
  unfold Obligations.ResetLoadsTheInitialValue
  refine ⟨fun s hs hr => ?_, fun s w => stepPair_reset w s, fun s => stays_of_not_unmarked⟩
  exact ⟨s.afterPair.resetCrc, step_of_rst hs hr, State.resetCrc_crc _, s.afterPair_faultMark,
    s.afterPair_refuseMark⟩

end Sys2Proof.Machine
